-- ==== Sys2Proof/Word.lean ====
section
/-! DEFINITION. The word types of the block: bytes on the wire (30 R80, R84), request words and their operand
field (30 R72). -/

namespace Sys2Proof

/-- One byte: a command byte or a segment pattern (30 R80, R84). -/
abbrev Byte := BitVec 8

/-- A request word, 36 bits (30 R72). -/
abbrev ReqWord := BitVec 36

/-- The operand field `ARG` of a request word, 32 bits (30 R72). -/
abbrev Arg := BitVec 32

end Sys2Proof
end

