-- ==== Sys2Proof/Config.lean ====
section
/-! DEFINITION. The implementation parameters (00 R6), their constraints (00 R7), their default values, and the
free values: what the spec leaves open and no proof may fix. -/

namespace Sys2Proof

/-- The parameters of 00 R6 that are not fixed by the source. They are the arguments of the model (00 R6): fixed
for the life of a block and written by no step (40 R100, 41 R123). -/
structure Params where
  /-- `SEG_TABLE`, 16 entries of 8 bits (40 R100). -/
  segTable : Vector Byte 16
  /-- `MINUS_PATTERN` (40 R105). -/
  minusPattern : Byte
  /-- `SEL_DATA`, the class selector of data-write commands (30 R80). -/
  selData : BitVec 2
  /-- `SEL_DISP`, the class selector of display-control commands. -/
  selDisp : BitVec 2
  /-- `SEL_ADDR`, the class selector of address-set commands. -/
  selAddr : BitVec 2
  /-- `DATA_WRITE_PAYLOAD` (30 R81). -/
  dataWritePayload : BitVec 6
  /-- `T_START`, microseconds (41 R121). -/
  tStart : Nat
  /-- `T_BIT`, microseconds. -/
  tBit : Nat
  /-- `T_ACK`, microseconds. -/
  tAck : Nat
  /-- `T_STOP`, microseconds. -/
  tStop : Nat
  /-- `CYCLES_PER_US`, used by the cycle-level mapping only (70 R234). -/
  cyclesPerUs : Nat
  /-- `RESET_BRIGHTNESS` (10 R21, 70 R224). -/
  resetBrightness : BitVec 3
  /-- `RESET_STATE`, true = on (10 R22, 70 R224). -/
  resetState : Bool
deriving DecidableEq, Repr

/-- `SEG_TABLE[0..9]`, the patterns of the decimal digits. -/
def Params.digitPatterns (p : Params) : List Byte := p.segTable.toList.take 10

/-- 00 R7, constraint 1: the class selectors are pairwise distinct. -/
abbrev Params.SelectorsDistinct (p : Params) : Prop :=
  p.selData ≠ p.selDisp ∧ p.selData ≠ p.selAddr ∧ p.selDisp ≠ p.selAddr

/-- 00 R7, constraint 2: `SEG_TABLE[0..9]` pairwise distinct, and `MINUS_PATTERN` different from each. -/
abbrev Params.GlyphsDistinct (p : Params) : Prop := (p.minusPattern :: p.digitPatterns).Nodup

/-- 00 R7, constraint 3: bit 7 of every table entry and of `MINUS_PATTERN` is 0. -/
abbrev Params.Bit7Clear (p : Params) : Prop :=
  ∀ b ∈ p.minusPattern :: p.segTable.toList, b.getLsbD 7 = false

/-- The constraints of 00 R7. A model must refuse a configuration that violates them. -/
abbrev Params.WF (p : Params) : Prop := p.SelectorsDistinct ∧ p.GlyphsDistinct ∧ p.Bit7Clear

/-- The ranges 93 U8 and 00 R6 give the timing parameters: each delay at least its default of 5, a positive
number of cycles per microsecond. No step depends on them; only the timing functions do. -/
abbrev Params.TimingInRange (p : Params) : Prop :=
  5 ≤ p.tStart ∧ 5 ≤ p.tBit ∧ 5 ≤ p.tAck ∧ 5 ≤ p.tStop ∧ 0 < p.cyclesPerUs

namespace Config

/-- `CLAMP_MIN` (fixed, 00 R6). -/
def clampMin : Int := -999
/-- `CLAMP_MAX` (fixed, 00 R6). -/
def clampMax : Int := 9999
/-- `DOTS_MASK`, bit 7 (fixed, 00 R6, 40 R106). -/
def dotsMask : Byte := 0x80
/-- `DOTS_POS` (fixed, 00 R6). -/
def dotsPos : Nat := 1
/-- `START_ADDR` (fixed, 00 R6). -/
def startAddr : BitVec 6 := 0
/-- `NDIGITS`, the number of display addresses (fixed, 00 R6, 20 R51). -/
def nDigits : Nat := 4
/-- `STATE_BIT`, the bit of the on/off flag in a display-control byte (fixed, 00 R6). -/
def stateBit : Nat := 3

/-- The reset value of CFG_BRIGHTNESS, left OPEN: a claim must hold for every value (70 R224). DESIGN CHOICE, log 2. -/
opaque resetBrightness : BitVec 3
/-- The reset value of CFG_STATE, left OPEN: a claim must hold for every value (70 R224). DESIGN CHOICE, log 2. -/
opaque resetState : Bool
/-- `CYCLES_PER_US` less one, left OPEN (70 R234). DESIGN CHOICE, log 1. -/
opaque extraCyclesPerUs : Nat
/-- The peripheral's pull on the data line where the input list of the state gives none: a free draw, under no law
(10 R31). DESIGN CHOICE, log 4. -/
opaque periphLow : Nat → Bool
/-- What a display setting of the peripheral holds where the spec says "any value" (70 R221, 93 U7). DESIGN CHOICE,
log 9. -/
opaque unknownByte : Nat → Byte
/-- What a display address holds where the spec says "any value" (70 R221, R225, 93 U7): at a draw, by address.
DESIGN CHOICE, log 9. -/
opaque unknownCell : (draw addr : Nat) → Byte

/-- The default segment table (40 R101). -/
def defaultSegTable : Vector Byte 16 :=
  #v[0x3F, 0x06, 0x5B, 0x4F, 0x66, 0x6D, 0x7D, 0x07, 0x7F, 0x6F, 0x77, 0x7C, 0x39, 0x5E, 0x79, 0x71]

/-- The default parameters of 00 R6, with the three parameters that have no default as arguments. -/
def defaultsWith (cyclesPerUs : Nat) (brightness : BitVec 3) (on : Bool) : Params :=
  { segTable := defaultSegTable, minusPattern := 0x40
    selData := 0b01, selDisp := 0b10, selAddr := 0b11, dataWritePayload := 0b000000
    tStart := 5, tBit := 5, tAck := 5, tStop := 5
    cyclesPerUs := cyclesPerUs, resetBrightness := brightness, resetState := on }

/-- The parameters of the block that `State.reset` describes: the defaults of 00 R6, the OPEN ones free
(DESIGN CHOICE, log 1). -/
def params : Params := defaultsWith (extraCyclesPerUs + 1) resetBrightness resetState

end Config

end Sys2Proof
end

