-- ==== Sys2Proof/Syntax.lean ====
section
/-! DEFINITION. The instruction syntax: one constructor per row of spec/opcode_table.json. -/

namespace Sys2Proof

/-- The six requests (30 R73) and the three wire commands (30 R80 to R83). -/
inductive Instr where
  /-- `DISPDEC`: render a decimal number; `number` is the int16 `ARG[15:0]`, `dots` is `ARG[16]` (30 R74). -/
  | dispDec (number : BitVec 16) (dots : Bool)
  /-- `DISPRAW`: render raw content; `c i` is the pattern for digit position `i` (30 R75). -/
  | dispRaw (c0 c1 c2 c3 : Byte)
  /-- `SETSTATE`: set the on/off state (30 R76). -/
  | setState (on : Bool)
  /-- `GETSTATE`: get the on/off state (30 R78). -/
  | getState
  /-- `SETBRT`: set the brightness; all eight bits of `ARG[7:0]` are kept in the syntax (30 R77). -/
  | setBrt (level : Byte)
  /-- `GETBRT`: get the brightness (30 R78). -/
  | getBrt
  /-- `CMD_DATA_WRITE`: the one data-write command byte the block issues (30 R81). -/
  | cmdDataWrite
  /-- `CMD_DISPLAY_CONTROL`: on/off and brightness in one byte (30 R82). -/
  | cmdDisplayControl (on : Bool) (brightness : BitVec 3)
  /-- `CMD_ADDRESS_SET`: the start digit address, a six-bit field of which 0 to 3 are legal (30 R83). -/
  | cmdAddressSet (addr : BitVec 6)
deriving DecidableEq, Repr

end Sys2Proof
end

