-- ==== Sys2Proof/WellFormed.lean ====
section
/-! DEFINITION. Which instruction terms are legal. The only operand with illegal values is the address of
CMD_ADDRESS_SET: every int16, byte, bit and 3-bit brightness is a legal operand (30 R74 to R77, 42 R141). -/

namespace Sys2Proof

/-- An instruction is well formed unless it is an address-set command with an address above 3: "legal 0–3"
(42 R143, 30 R83). -/
def Instr.wellFormed : Instr → Bool
  | .dispDec _ _ => true
  | .dispRaw _ _ _ _ => true
  | .setState _ => true
  | .getState => true
  | .setBrt _ => true
  | .getBrt => true
  | .cmdDataWrite => true
  | .cmdDisplayControl _ _ => true
  | .cmdAddressSet addr => decide (addr.toNat ≤ 3)

end Sys2Proof
end

