-- ==== Sys2Proof/Decode.lean ====
section
/-! DEFINITION. Decoding request words and command bytes (30 R72 to R85), and after it the encoder, written from
the same field tables. -/

namespace Sys2Proof

/-- What a word decodes to. -/
inductive Decoded where
  /-- An instruction of the table. -/
  | instr (i : Instr)
  /-- A request word with a reserved `OP`, 0x0 or 0x7 to 0xF (30 R79). -/
  | reservedOp (op : BitVec 4)
  /-- A byte that is no command byte of the table: a data-write variant the block never issues (30 R81), a
  display-control class with bits 5:4 set (30 R82), or a selector of no class (30 R85). -/
  | notACommand (b : Byte)
deriving DecidableEq, Repr

/-- The field `OP` (30 R72). -/
def opField (w : ReqWord) : BitVec 4 := w.extractLsb' 32 4

/-- The field `ARG` (30 R72). -/
def argField (w : ReqWord) : Arg := w.extractLsb' 0 32

/-- Byte `i` of the operand field, `ARG[8i+7:8i]` (30 R75). -/
def argByte (arg : Arg) (i : Nat) : Byte := arg.extractLsb' (8 * i) 8

/-- Request words decode by `OP` alone (30 R73, R85); the operand bits marked "ignored" are dropped (R79). -/
def decodeRequest (w : ReqWord) : Decoded :=
  let arg := argField w
  match (opField w).toNat with
  | 1 => .instr (.dispDec (arg.extractLsb' 0 16) (arg.getLsbD 16))
  | 2 => .instr (.dispRaw (argByte arg 0) (argByte arg 1) (argByte arg 2) (argByte arg 3))
  | 3 => .instr (.setState (arg.getLsbD 0))
  | 4 => .instr .getState
  | 5 => .instr (.setBrt (argByte arg 0))
  | 6 => .instr .getBrt
  | _ => .reservedOp (opField w)

/-- The class selector of a command byte, `CMD[7:6]` (30 R80). -/
def selField (b : Byte) : BitVec 2 := b.extractLsb' 6 2

/-- The payload of a command byte, `CMD[5:0]` (30 R80). -/
def payloadField (b : Byte) : BitVec 6 := b.extractLsb' 0 6

/-- Command bytes decode by their class (30 R80 to R83, R85). -/
def decodeCommand (p : Params) (b : Byte) : Decoded :=
  if selField b = p.selData then
    if payloadField b = p.dataWritePayload then .instr .cmdDataWrite else .notACommand b
  else if selField b = p.selDisp then
    if b.extractLsb' 4 2 = 0#2 then .instr (.cmdDisplayControl (b.getLsbD 3) (b.extractLsb' 0 3))
    else .notACommand b
  else if selField b = p.selAddr then .instr (.cmdAddressSet (payloadField b))
  else .notACommand b

/-- The two encoded forms (30, introduction). -/
inductive Encoded where
  /-- A request word. -/
  | request (w : ReqWord)
  /-- A wire byte. -/
  | command (b : Byte)
deriving DecidableEq, Repr

/-- Decode either form. -/
def decode (p : Params) : Encoded → Decoded
  | .request w => decodeRequest w
  | .command b => decodeCommand p b

/-- A request word from its two fields (30 R72). -/
def requestWord (op : BitVec 4) (arg : Arg) : ReqWord := op ++ arg

/-- A command byte from its two fields (30 R80). -/
def commandByte (sel : BitVec 2) (payload : BitVec 6) : Byte := sel ++ payload

/-- The encoder: the field tables of 30 R74 to R83, with every ignored `ARG` bit 0 (R88). -/
def encode (p : Params) : Instr → Encoded
  | .dispDec number dots => .request (requestWord 1 (0#15 ++ BitVec.ofBool dots ++ number))
  | .dispRaw c0 c1 c2 c3 => .request (requestWord 2 (c3 ++ c2 ++ c1 ++ c0))
  | .setState on => .request (requestWord 3 (0#31 ++ BitVec.ofBool on))
  | .getState => .request (requestWord 4 0)
  | .setBrt level => .request (requestWord 5 (0#24 ++ level))
  | .getBrt => .request (requestWord 6 0)
  | .cmdDataWrite => .command (commandByte p.selData p.dataWritePayload)
  | .cmdDisplayControl on brightness =>
      .command (commandByte p.selDisp (0#2 ++ BitVec.ofBool on ++ brightness))
  | .cmdAddressSet addr => .command (commandByte p.selAddr addr)

/-- The instruction of a decoded word, if it has one. -/
def Decoded.toOption : Decoded → Option Instr
  | .instr i => some i
  | .reservedOp _ => none
  | .notACommand _ => none

/-- The instruction whose bits are `w` as spec/opcode_table.json numbers them: a wire byte where the row has eight
bits (its match and mask use the default selectors), a request word otherwise. Bits above bit 35 belong to no
request word. -/
def decodeTableWord (nbits w : Nat) : Option Instr :=
  if nbits ≤ 8 then
    if w < 2 ^ 8 then (decodeCommand Config.params (BitVec.ofNat 8 w)).toOption else none
  else if w < 2 ^ 36 then (decodeRequest (BitVec.ofNat 36 w)).toOption else none

end Sys2Proof
end

