-- ==== Sys2Proof/Machine/State.lean ====
section
/-! DEFINITION. The state of the block as plain data, its line actions and trace events, the ways a step can stop,
and the state right after reset. -/

namespace Sys2Proof.Machine

/-- Which delay a `WAIT` waits for (00 R6, R11: a trace records the kind of each `WAIT`). -/
inductive Delay where
  | tStart | tBit | tAck | tStop
deriving DecidableEq, Repr

/-- A line action, one element of `PENDING` (00 R10). A level is true for 1, high. -/
inductive Action where
  /-- Drive the clock line to the level. -/
  | clk (v : Bool)
  /-- Set the data line output: false pulls the line low, true releases it. -/
  | dio (v : Bool)
  /-- Let the delay pass with no line change. -/
  | wait (t : Delay)
  /-- Hold until the sampled data line reads 0. -/
  | waitAck
deriving DecidableEq, Repr

/-- An event of the trace (00 R11). -/
inductive Event where
  | clk (v : Bool)
  | dio (v : Bool)
  | wait (t : Delay)
  | ack
  | rsp (v : Byte)
  | reset
deriving DecidableEq, Repr

/-- The input pins of one step (10 R27), the data line's given by the peripheral's pull (10 R31). -/
structure Pins where
  rst : Bool
  reqValid : Bool
  reqWord : ReqWord
  /-- `PERIPH_LOW`: the peripheral pulls the data line low. -/
  periphLow : Bool
deriving DecidableEq, Repr

/-- What the wire decoder of 20 R56 holds of the transaction now on the wire: whether a start condition was seen
and no stop since, the bits of the byte now shifted (first sent first), and the bytes complete so far. The model's
own field (log 7). -/
structure Wire where
  active : Bool
  bits : List Bool
  bytes : List Byte
deriving DecidableEq, Repr

/-- No transaction on the wire. -/
def Wire.idle : Wire := { active := false, bits := [], bytes := [] }

/-- The display address space as the wire decoder sees it (20 R51, R56): the cells a run has written, address and
pattern, strictly rising addresses below 4. What an unlisted address reads as is `Memory.unlisted`. -/
abbrev Memory := List Host.Cell

/-- The state: the registers and output pins of 10 R35, the parameters of 00 R6, the inputs of the coming steps,
and the observation of the run (00 R11, 20 R56). -/
structure State where
  /-- The parameters (00 R6); no step writes them. The model's own field (log 1). -/
  params : Params
  /-- `CFG_BRIGHTNESS` (10 R21). -/
  cfgBrightness : BitVec 3
  /-- `CFG_STATE`, true = on (10 R22). -/
  cfgState : Bool
  /-- `PENDING` (10 R24). -/
  pending : List Action
  /-- `CLK_O` (10 R27). -/
  clkO : Bool
  /-- `DIO_O`, true = released (10 R27, R28). -/
  dioO : Bool
  /-- `RSP_DATA` (10 R30). -/
  rspData : Byte
  /-- `RSP_VALID` (10 R30). -/
  rspValid : Bool
  /-- The input pins of the coming steps, this step's first. The model's own field (log 3). -/
  env : List Pins
  /-- How many steps have been taken: the argument of the free values. The model's own field (log 5). -/
  draws : Nat
  /-- The trace so far, oldest event first (00 R11). The model's own field (log 6). -/
  trace : List Event
  /-- The wire decoder (20 R56). -/
  wire : Wire
  /-- `DRAM`, the display memory as the wire decoder sees it (20 R56). -/
  dram : Memory
  /-- The draw at which `DRAM` last became any value (93 U7): the argument of the free values its unlisted addresses
  hold. The model's own field (log 9). -/
  dramDraw : Nat
  /-- `DCTRL`, the last display-control byte the peripheral received (95, section 3). -/
  dctrl : Byte
  /-- The last data-write command byte the peripheral received (30 R81). The model's own field (log 10). -/
  dataMode : Byte
deriving DecidableEq, Repr

/-- How the machine stops. The block itself has no fault (60 R200). -/
inductive Fault where
  /-- Raised by CMD_ADDRESS_SET when its transaction writes a pattern to an address outside the display address
  space 0..3 (20 R51), or sets an illegal start address (42 R143). No run from reset reaches it. Safe: the model
  stops where the spec gives no effect. -/
  | noDisplayCell (addr : Nat)
deriving DecidableEq, Repr

/-- What the model gives no meaning. -/
inductive Refusal where
  /-- An instruction the model does not cover; raised by no arm of `exec`. Safe. -/
  | notModelled (mnemonic : String)
  /-- Raised by the acceptance step on a reserved `OP` (60 R201). Safe: it admits no behaviour. -/
  | reservedRequest (op : BitVec 4)
  /-- Raised when a transaction closes whose first byte is no command byte of the table (30 R85); the block sends
  none. Safe: the model stops where the spec gives no effect. -/
  | unknownCommand (b : Byte)
  /-- Raised by every step of a block whose parameters violate 00 R7 (93 U21). Safe. -/
  | badParameters
deriving DecidableEq, Repr

/-- The state right after reset of a block with the given parameters (10 R35, 70 R220). The display memory and
settings of the peripheral are any value, so every display address holds a free value (70 R225, 93 U7; log 9). -/
def State.resetWith (p : Params) : State :=
  { params := p
    cfgBrightness := p.resetBrightness, cfgState := p.resetState
    pending := [], clkO := true, dioO := true, rspData := 0x00, rspValid := false
    env := [], draws := 0, trace := [], wire := Wire.idle
    dram := [], dramDraw := 0, dctrl := Config.unknownByte 0, dataMode := Config.unknownByte 1 }

/-- The machine right after reset (70 R220, R222: idle, waiting for a request). -/
def State.reset : State := State.resetWith Config.params

end Sys2Proof.Machine
end

