-- ==== Sys2Proof/Machine/Flags.lean ====
section
/-! DEFINITION. The status flag and the pins that are computed from the state: BUSY, REQ_READY, the data line and
its sample, the input pins of the step to come, and the check of the parameters. -/

namespace Sys2Proof.Machine

/-- `BUSY = (PENDING != [])`, the only status flag (10 R25). -/
def State.busy (s : State) : Bool := !s.pending.isEmpty

/-- `REQ_READY = !BUSY` (10 R25, R27). -/
def State.reqReady (s : State) : Bool := !s.busy

/-- The level of the open-drain data line: the wired-AND of the block's driver and the peripheral's pull (10 R28). -/
def dioLine (dioO periphLow : Bool) : Bool := dioO && !periphLow

/-- The input pins of the step about to be taken: the head of the input list; past its end the host drives nothing
and the peripheral's pull is a free draw (10 R31; log 3, log 4). -/
def State.pins (s : State) : Pins :=
  match s.env with
  | now :: _ => now
  | [] => { rst := false, reqValid := false, reqWord := 0, periphLow := Config.periphLow s.draws }

/-- `DIO_I`, the sampled level of the data line in the step about to be taken (10 R27, R28). -/
def State.dioI (s : State) : Bool := dioLine s.dioO s.pins.periphLow

/-- Are the numbers pairwise distinct? -/
def distinctNats : List Nat → Bool
  | [] => true
  | n :: ns => (ns.all fun m => !Nat.beq n m) && distinctNats ns

/-- The check of the parameters (00 R7), as a step makes it; `paramsLegal_iff` says that it is `Params.WF`. -/
def paramsLegal (p : Params) : Bool :=
  distinctNats [p.selData.toNat, p.selDisp.toNat, p.selAddr.toNat] &&
  distinctNats ((p.minusPattern :: p.digitPatterns).map BitVec.toNat) &&
  (p.minusPattern :: p.segTable.toList).all fun b => Nat.blt b.toNat 128

end Sys2Proof.Machine
end

