-- ==== Sys2Proof/Machine/Transport.lean ====
section
/-! DEFINITION. The Bit-Link Transport: the fixed action lists of 41 R111 to R117, and the programs built from
them (42 R144). -/

namespace Sys2Proof.Machine

/-- `START_SEQ` (41 R111). -/
def startSeq : List Action :=
  [.dio true, .clk true, .wait .tStart, .dio false, .wait .tStart]

/-- `STOP_SEQ` (41 R112). -/
def stopSeq : List Action :=
  [.clk false, .wait .tStop, .dio false, .wait .tStop, .clk true, .wait .tStop, .dio true]

/-- `BIT_CELL(v)` (41 R113). -/
def bitCell (v : Bool) : List Action :=
  [.clk false, .dio v, .wait .tBit, .clk true, .wait .tBit]

/-- `ACK_SEQ` (41 R114; the data line is never pulled low here, 90 C1). -/
def ackSeq : List Action :=
  [.clk false, .wait .tAck, .dio true, .waitAck, .dio true, .clk true, .wait .tAck, .clk false]

/-- The eight bits of a byte in the order they are sent, least significant first (20 R52). -/
def bitsOf (b : Byte) : List Bool :=
  [b.getLsbD 0, b.getLsbD 1, b.getLsbD 2, b.getLsbD 3, b.getLsbD 4, b.getLsbD 5, b.getLsbD 6, b.getLsbD 7]

/-- The byte whose bits were sent in this order: the inverse of `bitsOf`. -/
def byteOf (bits : List Bool) : Byte :=
  BitVec.ofNat 8 (bits.foldr (fun b n => b.toNat + 2 * n) 0)

/-- `BYTE_SEQ(b)` (41 R116). -/
def byteSeq (b : Byte) : List Action := (bitsOf b).flatMap bitCell ++ ackSeq

/-- `TXN(bytes)`, one framed sequence (41 R117). -/
def txn (bytes : List Byte) : List Action := startSeq ++ bytes.flatMap byteSeq ++ stopSeq

/-- `WRITE_COMMAND(c)` (42 R144). -/
def writeCommand (c : Byte) : List Action := txn [c]

end Sys2Proof.Machine
end

