-- ==== Sys2Proof/Machine/Operands.lean ====
section
/-! DEFINITION. What an operand becomes: command bytes (42 R140 to R143), the segment lookup (40 R102), clamping,
digits and content frames (43 R160 to R166). Pure functions of the operands and the parameters. -/

namespace Sys2Proof.Machine

/-- `CMD_DATA_WRITE` (42 R140). -/
def cmdDataWrite (p : Params) : Byte :=
  (p.selData.setWidth 8 <<< 6) ||| p.dataWritePayload.setWidth 8

/-- `CMD_DISPLAY_CONTROL(b, s)` (42 R141). -/
def cmdDisplayControl (p : Params) (b : BitVec 3) (s : Bool) : Byte :=
  (p.selDisp.setWidth 8 <<< 6) ||| b.setWidth 8 ||| ((BitVec.ofBool s).setWidth 8 <<< Config.stateBit)

/-- `CMD_ADDRESS_SET(a)` (42 R143). -/
def cmdAddressSet (p : Params) (a : BitVec 6) : Byte :=
  (p.selAddr.setWidth 8 <<< 6) ||| a.setWidth 8

/-- `SEG_LOOKUP(nibble)` (40 R102): every 4-bit value has an entry. -/
def segLookup (p : Params) (nibble : BitVec 4) : Byte := p.segTable.get nibble.toFin

/-- The segment pattern of a decimal digit 0..9; `DIGITS4` and `DIGITS3` give no other (40 R103). -/
def digitPattern (p : Params) (d : Nat) : Byte := segLookup p (BitVec.ofNat 4 d)

/-- `CLAMP(n)` (43 R160), on mathematical integers. -/
def clamp (n : Int) : Int :=
  if n < Config.clampMin then Config.clampMin
  else if n > Config.clampMax then Config.clampMax
  else n

/-- `DIGITS4(n)`, for 0 ≤ n ≤ 9999 (43 R161). -/
def digits4 (n : Nat) : List Nat :=
  let d0 := n / 1000
  let r0 := n % 1000
  let d1 := r0 / 100
  let r1 := r0 % 100
  let d2 := r1 / 10
  let d3 := r1 % 10
  [d0, d1, d2, d3]

/-- `DIGITS3(m)`, for 1 ≤ m ≤ 999 (43 R162). -/
def digits3 (m : Nat) : List Nat :=
  let e1 := m / 100
  let r1 := m % 100
  let e2 := r1 / 10
  let e3 := r1 % 10
  [e1, e2, e3]

/-- The four patterns of a number already clamped, without dots (43 R163). -/
def decimalPatterns (p : Params) (n : Int) : List Byte :=
  if n < 0 then p.minusPattern :: (digits3 (-n).toNat).map (digitPattern p)
  else (digits4 n.toNat).map (digitPattern p)

/-- OR the dots bit into the pattern for digit position 1 when asked for (40 R106, 43 R163). -/
def withDots (dots : Bool) (patterns : List Byte) : List Byte :=
  if dots then patterns.modify Config.dotsPos (· ||| Config.dotsMask) else patterns

/-- The content frame of four patterns: the address-set command, then positions 0 to 3 (20 R53). -/
def contentFrame (p : Params) (patterns : List Byte) : List Byte :=
  cmdAddressSet p Config.startAddr :: patterns

/-- `DECIMAL_FRAME(number, dots)` (43 R163). -/
def decimalFrame (p : Params) (number : Int) (dots : Bool) : List Byte :=
  contentFrame p (withDots dots (decimalPatterns p (clamp number)))

/-- `CONTENT_PROGRAM(frame)`: two framed sequences, never one (43 R166, 42 R146). -/
def contentProgram (p : Params) (frame : List Byte) : List Action :=
  writeCommand (cmdDataWrite p) ++ txn frame

/-- `level & 0x07`: masking, not clamping (43 R171). -/
def maskBrightness (level : Byte) : BitVec 3 := (level &&& 0x07).setWidth 3

end Sys2Proof.Machine
end

