-- ==== Sys2Proof/Machine/Observe.lean ====
section
/-! DEFINITION. The observation of a run: the wire decoder of 20 R56, the display memory it fills, the inverse of
the segment table (40 R107), and the edges of a waveform (41 R119). None of it is read by the block. -/

namespace Sys2Proof.Machine

/-- The wire decoder sees the clock line set to `v` while the lines are at `clk` and `dio`. Inside a transaction a
rising edge presents a bit (41 R113); with eight bits in, it is the ninth clock of the acknowledge, which closes
the byte (41 R114). DEDUCED, log 7. -/
def Wire.onClk (w : Wire) (clk dio v : Bool) : Wire :=
  if w.active && !clk && v then
    if w.bits.length < 8 then { w with bits := w.bits ++ [dio] }
    else { w with bits := [], bytes := w.bytes ++ [byteOf w.bits] }
  else w

/-- The wire decoder sees the data line set to `v`. A falling edge while the clock is high is a start condition
(41 R111, R119). DEDUCED, log 7. -/
def Wire.onDio (w : Wire) (clk dio v : Bool) : Wire :=
  if clk && dio && !v then { active := true, bits := [], bytes := [] } else w

/-- A rising edge of the data line while the clock is high, inside a transaction: its stop condition
(41 R112, R119). -/
def Wire.stops (w : Wire) (clk dio v : Bool) : Bool := w.active && clk && !dio && v

/-- The wire decoder sees a reset force both lines to 1 from `clk` and `dio`. With the clock high and the data low,
the rise of the data line is a stop condition and ends the transaction; in every other case no stop is made and the
transaction is left part-way through a byte (70 R221). With both lines high nothing moves. With the clock low its rise,
alone or together with that of the data line, is counted neither as a bit nor as the ninth clock, a point the spec
leaves open. DEDUCED the stop and the case of no edge; DESIGN CHOICE every reset with the clock low; log 7. -/
def Wire.onReset (w : Wire) (clk dio : Bool) : Wire := if w.stops clk dio true then Wire.idle else w

/-- The two lines as the block drives them, and the wire decoder watching them. -/
structure Link where
  clk : Bool
  dio : Bool
  wire : Wire
deriving DecidableEq, Repr

/-- Both lines at the idle-high state, with whatever a reset has left on the wire: the next start condition makes an
end of it (10 R29, 70 R221, 41 R111). -/
def Link.high (w : Wire) : Link := { clk := true, dio := true, wire := w }

/-- Both lines at the idle-high state and no transaction on the wire (10 R29). -/
def Link.idle : Link := Link.high Wire.idle

/-- The link after one action. -/
def Link.act (l : Link) : Action → Link
  | .clk v => { l with clk := v, wire := l.wire.onClk l.clk l.dio v }
  | .dio v =>
      { l with
        dio := v
        wire := if l.wire.stops l.clk l.dio v then Wire.idle else l.wire.onDio l.clk l.dio v }
  | .wait _ => l
  | .waitAck => l

/-- The link after a reset (70 R220, R221). -/
def Link.reset (l : Link) : Link := Link.high (l.wire.onReset l.clk l.dio)

/-- The link after a list of actions. -/
def Link.replay (l : Link) (actions : List Action) : Link := actions.foldl Link.act l

/-- The transactions a list of events carries, in order: each is the list of its bytes (20 R56). The stop condition
that ends one is the rise of the data line by a `DIO` action or by a reset (41 R112, 70 R221); a byte cut short by
it is no byte of the transaction. -/
def sentFrom : Link → List Event → List (List Byte)
  | _, [] => []
  | l, .clk v :: es => sentFrom (l.act (.clk v)) es
  | l, .dio v :: es =>
      if l.wire.stops l.clk l.dio v then l.wire.bytes :: sentFrom (l.act (.dio v)) es
      else sentFrom (l.act (.dio v)) es
  | l, .wait _ :: es => sentFrom l es
  | l, .ack :: es => sentFrom l es
  | l, .rsp _ :: es => sentFrom l es
  | l, .reset :: es =>
      if l.wire.stops l.clk l.dio true then l.wire.bytes :: sentFrom l.reset es
      else sentFrom l.reset es

/-- The transactions of a trace that begins with the lines idle. -/
def sentOf (trace : List Event) : List (List Byte) := sentFrom Link.idle trace

/-- The event an action leaves when it is performed and completes (41 R110, R115). -/
def Action.event : Action → Event
  | .clk v => .clk v
  | .dio v => .dio v
  | .wait t => .wait t
  | .waitAck => .ack

/-- The changes of the data output while the clock output is high, from the given levels on: the new level of each,
in order (41 R119). -/
def dataEdgesWhileHigh : Bool → Bool → List Action → List Bool
  | _, _, [] => []
  | _, dio, .clk v :: as => dataEdgesWhileHigh v dio as
  | clk, dio, .dio v :: as =>
      if clk && (dio != v) then v :: dataEdgesWhileHigh clk v as else dataEdgesWhileHigh clk v as
  | clk, dio, .wait _ :: as => dataEdgesWhileHigh clk dio as
  | clk, dio, .waitAck :: as => dataEdgesWhileHigh clk dio as

/-- The pattern listed at an address, if the run has written one there (20 R56). -/
def Memory.listed : Memory → Nat → Option Byte
  | [], _ => none
  | (b, v) :: m, a => if a = b then some v else Memory.listed m a

/-- What an unlisted address reads as: any value, a free value (70 R221, R225, 93 U7; log 9). -/
def Memory.unlisted (draw addr : Nat) : Byte := Config.unknownCell draw addr

/-- `DRAM[a]`: each of the four display addresses holds a byte, and there is no other address (20 R51). -/
def Memory.read (m : Memory) (draw a : Nat) : Option Byte :=
  if a < Config.nDigits then some ((m.listed a).getD (Memory.unlisted draw a)) else none

/-- Put a cell into its place, replacing the one at its address. -/
def Memory.insert : Memory → Nat → Byte → Memory
  | [], a, v => [(a, v)]
  | (b, w) :: m, a, v =>
      if a < b then (a, v) :: (b, w) :: m
      else if a = b then (a, v) :: m
      else (b, w) :: Memory.insert m a v

/-- `DRAM[a] <- v`; the display address space has four addresses (20 R51). -/
def Memory.write (m : Memory) (a : Nat) (v : Byte) : Option Memory :=
  if a < Config.nDigits then some (m.insert a v) else none

/-- `DRAM[a + k - 1] <- txn_bytes[k]` for each pattern byte in turn, from start address `a` (20 R56). -/
def Memory.writeFrom (m : Memory) (a : Nat) : List Byte → Option Memory
  | [] => some m
  | v :: vs => (m.write a v).bind fun m' => Memory.writeFrom m' (a + 1) vs

/-- The canonical form: strictly rising addresses, all in the display address space. -/
abbrev Memory.wf (m : Memory) : Prop :=
  m.Pairwise (fun c d => c.1 < d.1) ∧ ∀ c ∈ m, c.1 < Config.nDigits

/-- What `UNSEG` answers: a decimal digit or the minus sign (40 R107). -/
inductive Glyph where
  | digit (d : Nat)
  | minus
deriving DecidableEq, Repr

/-- `UNSEG(p)`: the inverse of the table on decimal digits (40 R107). -/
def unseg (p : Params) (pattern : Byte) : Option Glyph :=
  match (List.range 10).find? fun d => digitPattern p d == (pattern &&& 0x7F) with
  | some d => some (.digit d)
  | none => if (pattern &&& 0x7F) = p.minusPattern then some .minus else none

/-- The byte a state holds at a display address (20 R51). -/
def State.readCell (s : State) (a : Nat) : Option Byte := Memory.read s.dram s.dramDraw a

/-- The glyph the display memory holds at a digit position (20 R56, 40 R107). -/
def State.glyphAt (s : State) (position : Nat) : Option Glyph :=
  (s.readCell position).bind (unseg s.params)

end Sys2Proof.Machine
end

