-- ==== Sys2Proof/Machine/Ops.lean ====
section
/-! DEFINITION. The named operations over the state. The block has no exception to take and none to return from
(60 R200, R206, R207); the one operation that forces state from outside is the reset step (70 R220). -/

namespace Sys2Proof.Machine

/-- What a meaning answers. -/
abbrev Out := Host.Outcome State Fault Refusal

/-- What every step does to the model's own fields before anything else: it uses up this step's input pins and one
draw, and `RSP_VALID` falls unless the step accepts a getter (41 R118, 10 R30). -/
def State.tick (s : State) : State :=
  { s with env := s.env.tail, draws := s.draws + 1, rspValid := false }

/-- `emit e` (00 R11). -/
def State.emit (s : State) (e : Event) : State := { s with trace := s.trace ++ [e] }

/-- `PENDING <- L` (00 R9). -/
def State.load (s : State) (program : List Action) : State := { s with pending := program }

/-- `PENDING <- tail(PENDING)` (41 R110). -/
def State.advance (s : State) : State := { s with pending := s.pending.tail }

/-- `CLK_O <- v`, with the wire decoder watching (10 R29). -/
def State.driveClk (s : State) (v : Bool) : State :=
  { s with clkO := v, wire := s.wire.onClk s.clkO s.dioO v }

/-- `DIO_O <- v`, with the wire decoder watching (10 R29). -/
def State.driveDio (s : State) (v : Bool) : State :=
  { s with dioO := v, wire := s.wire.onDio s.clkO s.dioO v }

/-- The transaction on the wire is over. -/
def State.clearWire (s : State) : State := { s with wire := Wire.idle }

/-- A getter's answer: `RSP_DATA <- v`, `RSP_VALID` is 1 in the next step, `emit RSP(v)` (10 R30, 43 R170, R172). -/
def State.respond (s : State) (v : Byte) : State :=
  { s with rspData := v, rspValid := true, trace := s.trace ++ [.rsp v] }

/-- `CFG_STATE <- on` (43 R169). -/
def State.setCfgState (s : State) (on : Bool) : State := { s with cfgState := on }

/-- `CFG_BRIGHTNESS <- b` (43 R171). -/
def State.setCfgBrightness (s : State) (b : BitVec 3) : State := { s with cfgBrightness := b }

/-- `PENDING <- WRITE_COMMAND(CMD_DISPLAY_CONTROL(CFG_BRIGHTNESS, CFG_STATE))`: the full configuration as it now
stands (42 R145, R147; 43 R169, R171). -/
def State.sendDisplayControl (s : State) : State :=
  s.load (writeCommand (cmdDisplayControl s.params s.cfgBrightness s.cfgState))

/-- `PENDING <- CONTENT_PROGRAM(frame)` (43 R165, R168). -/
def State.sendContent (s : State) (frame : List Byte) : State :=
  s.load (contentProgram s.params frame)

/-- The pattern bytes of the transaction on the wire, those after its command byte (20 R56). -/
def State.patternsOnWire (s : State) : List Byte := s.wire.bytes.tail

/-- The reset step, `RST = 1` (70 R220): every register and output pin at its reset value, and the RESET event.
The wire decoder sees the edges it makes, a stop condition among them (70 R221). If it cuts a request short, the
peripheral's display memory and settings are any value afterwards, so what such a stop would have closed is not run
(70 R221, 93 U7; log 9); if the block is idle they stay (95 V-X5). -/
def State.resetStep (s : State) : State :=
  { s with
    cfgBrightness := s.params.resetBrightness
    cfgState := s.params.resetState
    pending := []
    clkO := true
    dioO := true
    rspData := 0x00
    rspValid := false
    trace := s.trace ++ [.reset]
    wire := s.wire.onReset s.clkO s.dioO
    dram := if s.busy then [] else s.dram
    dramDraw := if s.busy then s.draws else s.dramDraw
    dctrl := if s.busy then Config.unknownByte (2 * s.draws) else s.dctrl
    dataMode := if s.busy then Config.unknownByte (2 * s.draws + 1) else s.dataMode }

end Sys2Proof.Machine
end

