-- ==== Sys2Proof/Machine/Commands.lean ====
section
/-! DEFINITION. The meanings of the three wire commands: what the wire decoder reads from a transaction that
begins with the command byte, when its stop condition closes it (20 R56; log 8). No register, line or action of the
block is written ("State written: none", 42 R140, R141, R143). -/

namespace Sys2Proof.Machine

/-- CMD_DATA_WRITE: it selects the write mode (30 R81; log 10); the transaction carries only this byte (20 R57). -/
def execCmdDataWrite (s : State) : Out :=
  .next { s with dataMode := cmdDataWrite s.params }

/-- CMD_DISPLAY_CONTROL: the peripheral's display-control setting becomes this byte (95, section 3). -/
def execCmdDisplayControl (on : Bool) (brightness : BitVec 3) (s : State) : Out :=
  .next { s with dctrl := cmdDisplayControl s.params brightness on }

/-- CMD_ADDRESS_SET: the pattern bytes of the transaction go to consecutive display addresses from `addr` on
(20 R56). An address outside 0..3 does not exist (20 R51). -/
def execCmdAddressSet (addr : BitVec 6) (s : State) : Out :=
  if addr.toNat < Config.nDigits then
    match s.dram.writeFrom addr.toNat s.patternsOnWire with
    | some dram => .next { s with dram := dram }
    | none => .fault (.noDisplayCell addr.toNat)
  else .fault (.noDisplayCell addr.toNat)

end Sys2Proof.Machine
end

