-- ==== Sys2Proof/Machine/Requests.lean ====
section
/-! DEFINITION. The meanings of the six requests: each is the acceptance step's effect, taken when the block is
idle (43 R164). None touches a line: the first action is performed in the following step (41 R118). -/

namespace Sys2Proof.Machine

/-- DISPLAY_DECIMAL (43 R165): the number is the operand read as a signed 16-bit integer. -/
def execDispDec (number : BitVec 16) (dots : Bool) (s : State) : Out :=
  .next (s.sendContent (decimalFrame s.params number.toInt dots))

/-- DISPLAY_CONTENT (43 R168): the four patterns unchanged. -/
def execDispRaw (c0 c1 c2 c3 : Byte) (s : State) : Out :=
  .next (s.sendContent (contentFrame s.params [c0, c1, c2, c3]))

/-- SET_STATE (43 R169): the configuration is written at acceptance, the brightness kept. -/
def execSetState (on : Bool) (s : State) : Out :=
  .next (s.setCfgState on).sendDisplayControl

/-- GET_STATE (43 R170). -/
def execGetState (s : State) : Out :=
  .next (s.respond ((BitVec.ofBool s.cfgState).setWidth 8))

/-- SET_BRIGHTNESS (43 R171): the level is masked to three bits, the state kept. -/
def execSetBrt (level : Byte) (s : State) : Out :=
  .next (s.setCfgBrightness (maskBrightness level)).sendDisplayControl

/-- GET_BRIGHTNESS (43 R172). -/
def execGetBrt (s : State) : Out :=
  .next (s.respond (s.cfgBrightness.setWidth 8))

end Sys2Proof.Machine
end

