-- ==== Sys2Proof/Machine/Dispatch.lean ====
section
/-! DEFINITION. One arm per row of the opcode table (43 R164 for the requests, 20 R56 for the wire commands). -/

namespace Sys2Proof.Machine

def exec (i : Instr) (s : State) : Host.Outcome State Fault Refusal :=
  match i with
  | .dispDec number dots => Sys2Proof.Machine.execDispDec number dots s
  | .dispRaw c0 c1 c2 c3 => Sys2Proof.Machine.execDispRaw c0 c1 c2 c3 s
  | .setState on => Sys2Proof.Machine.execSetState on s
  | .getState => Sys2Proof.Machine.execGetState s
  | .setBrt level => Sys2Proof.Machine.execSetBrt level s
  | .getBrt => Sys2Proof.Machine.execGetBrt s
  | .cmdDataWrite => Sys2Proof.Machine.execCmdDataWrite s
  | .cmdDisplayControl on brightness => Sys2Proof.Machine.execCmdDisplayControl on brightness s
  | .cmdAddressSet addr => Sys2Proof.Machine.execCmdAddressSet addr s

end Sys2Proof.Machine
end

