-- ==== Sys2Proof/Machine/Sequencer.lean ====
section
/-! DEFINITION. The sequencer: performing an action, accepting a request, closing a transaction, one block step
(41 R110, R115, R118; 43 R164). -/

namespace Sys2Proof.Machine

/-- `accept(w)` (43 R164): the request's own effect, or a refusal if `OP` is reserved (60 R201). -/
def accept (w : ReqWord) (s : State) : Out :=
  match decodeRequest w with
  | .instr i => exec i s
  | .reservedOp op => .refused (.reservedRequest op)
  | .notACommand b => .refused (.unknownCommand b)

/-- The transaction on the wire is over. -/
def endTransaction : Out → Out
  | .next s => .next s.clearWire
  | .fault f => .fault f
  | .refused r => .refused r

/-- A stop condition closes the transaction on the wire: its first byte is decoded and executed as a wire command
(20 R56; log 8). A transaction with no byte carries no command (41 R117). -/
def closeTransaction (s : State) : Out :=
  match s.wire.bytes with
  | [] => endTransaction (.next s)
  | c :: _ =>
      match decodeCommand s.params c with
      | .instr i => endTransaction (exec i s)
      | .reservedOp op => .refused (.reservedRequest op)
      | .notACommand b => .refused (.unknownCommand b)

/-- `WAIT_ACK` (41 R115): a sample of 0 completes the wait; a sample of 1 holds, with no change and no event. -/
def performWaitAck (sample : Bool) (s : State) : Out :=
  if sample then .next s else .next (s.emit .ack).advance

/-- `DIO(v)` (41 R110): the line is driven, the event emitted and the action removed; the rise that ends a
transaction also closes it for the wire decoder. -/
def performDio (v : Bool) (s : State) : Out :=
  let s' := ((s.driveDio v).emit (.dio v)).advance
  if s.wire.stops s.clkO s.dioO v then closeTransaction s' else .next s'

/-- `step_action(a)` (41 R110), with the sample of the data line in this step (41 R115). -/
def performAction (a : Action) (sample : Bool) (s : State) : Out :=
  match a with
  | .clk v => .next ((s.driveClk v).emit (.clk v)).advance
  | .dio v => performDio v s
  | .wait t => .next (s.emit (.wait t)).advance
  | .waitAck => performWaitAck sample s

/-- `block_step()` (41 R118), for a block whose parameters meet 00 R7; one that violates them is refused. The
priority is RST, the head action, acceptance (60 R205). -/
def blockStep (s : State) : Out :=
  if paramsLegal s.params then
    if s.pins.rst then .next s.tick.resetStep
    else
      match s.pending with
      | a :: _ => performAction a s.dioI s.tick
      | [] => if s.pins.reqValid then accept s.pins.reqWord s.tick else .next s.tick
  else .refused .badParameters

/-- Input pins on which the host does nothing. -/
def quietPins : Pins := { rst := false, reqValid := false, reqWord := 0, periphLow := false }

/-- The state with a request word presented for the step to come, the block idle so that it is taken (30 R71). -/
def State.withRequest (s : State) (w : ReqWord) : State :=
  { s with pending := [], env := { quietPins with reqValid := true, reqWord := w } :: s.env }

/-- The state with a command byte as the one byte of a transaction on the wire whose stop condition is the action of
the step to come (41 R112). -/
def State.withCommand (s : State) (b : Byte) : State :=
  { s with
    pending := .dio true :: s.pending, env := quietPins :: s.env
    clkO := true, dioO := false
    wire := { active := true, bits := [], bytes := [b] } }

end Sys2Proof.Machine
end

