-- ==== Sys2Proof/Machine/Step.lean ====
section
/-! DEFINITION. One step of the machine, and how the host places an instruction where the next step runs it. -/

namespace Sys2Proof.Machine

/-- One step (41 R118). -/
def step (s : State) : Host.Outcome State Fault Refusal := blockStep s

/-- `s` with the instruction whose bits are `w` where the next step takes it: a row of eight bits as the command
byte of a transaction about to close, a request on the request port otherwise (log 15). -/
def State.withFetchWord (s : State) (nbits w : Nat) : State :=
  if nbits ≤ 8 then s.withCommand (BitVec.ofNat 8 w) else s.withRequest (BitVec.ofNat 36 w)

end Sys2Proof.Machine
end

