-- ==== Sys2Proof/Machine/Assembler.lean ====
section
/-! DEFINITION. The request assembler (30 R88): one request per line, comments from `;` on, numbers in decimal,
hexadecimal or binary. It writes every ignored `ARG` bit as 0 and refuses an operand outside its range. -/

namespace Sys2Proof.Machine

/-- The value of a digit character. -/
def digitValue (c : Char) : Option Nat :=
  let n := c.toNat
  if 48 ≤ n ∧ n ≤ 57 then some (n - 48)
  else if 97 ≤ n ∧ n ≤ 102 then some (n - 87)
  else if 65 ≤ n ∧ n ≤ 70 then some (n - 55)
  else none

/-- The digits of a number in a base, most significant first, from the value read so far on. -/
def parseDigits (base : Nat) : Nat → List Char → Option Nat
  | acc, [] => some acc
  | acc, c :: cs =>
      match digitValue c with
      | some d => if d < base then parseDigits base (acc * base + d) cs else none
      | none => none

/-- An unsigned number: `0x` hexadecimal, `0b` binary, otherwise decimal. -/
def parseNat : List Char → Option Nat
  | [] => none
  | ['0', 'x'] => none
  | ['0', 'b'] => none
  | '0' :: 'x' :: ds => parseDigits 16 0 ds
  | '0' :: 'b' :: ds => parseDigits 2 0 ds
  | ds => parseDigits 10 0 ds

/-- A signed number: a minus sign before an unsigned one. -/
def parseInt : List Char → Option Int
  | '-' :: ds => (parseNat ds).map fun n => -(n : Int)
  | ds => (parseNat ds).map fun n => (n : Int)

/-- A blank inside a line. -/
def isBlank (c : Char) : Bool := c == ' ' || c == '\t' || c == '\r'

/-- The text without blanks at either end. -/
def trim (cs : List Char) : List Char :=
  ((cs.dropWhile isBlank).reverse.dropWhile isBlank).reverse

/-- Split a text at a separator. -/
def splitAtChar (sep : Char) : List Char → List (List Char)
  | [] => [[]]
  | c :: cs =>
      match splitAtChar sep cs with
      | [] => [[c]]
      | w :: ws => if c == sep then [] :: w :: ws else (c :: w) :: ws

/-- The operands of a request: separated by commas; none if the text is blank. -/
def operands (cs : List Char) : List (List Char) :=
  if (trim cs).isEmpty then [] else (splitAtChar ',' cs).map trim

/-- An operand of eight bits, 0 to 255. -/
def byteOperand (cs : List Char) : Option Byte :=
  (parseNat cs).bind fun n => if n < 256 then some (BitVec.ofNat 8 n) else none

/-- An operand of sixteen signed bits, -32768 to 32767. -/
def int16Operand (cs : List Char) : Option (BitVec 16) :=
  (parseInt cs).bind fun n => if -32768 ≤ n ∧ n ≤ 32767 then some (BitVec.ofInt 16 n) else none

/-- A request from its mnemonic and operands: the rows of 30 R88. -/
def parseRequest (mnemonic : List Char) (ops : List (List Char)) : Option Instr :=
  if mnemonic = "DISPDEC".toList then
    match ops with
    | [n] => (int16Operand n).map fun v => .dispDec v false
    | [n, d] => if d = "DOTS".toList then (int16Operand n).map fun v => .dispDec v true else none
    | _ => none
  else if mnemonic = "DISPRAW".toList then
    match ops.mapM byteOperand with
    | some [c0, c1, c2, c3] => some (.dispRaw c0 c1 c2 c3)
    | _ => none
  else if mnemonic = "SETSTATE".toList then
    match ops with
    | [o] =>
        if o = "ON".toList then some (.setState true)
        else if o = "OFF".toList then some (.setState false)
        else none
    | _ => none
  else if mnemonic = "GETSTATE".toList then
    match ops with
    | [] => some .getState
    | _ => none
  else if mnemonic = "SETBRT".toList then
    match ops with
    | [l] => (byteOperand l).map .setBrt
    | _ => none
  else if mnemonic = "GETBRT".toList then
    match ops with
    | [] => some .getBrt
    | _ => none
  else none

/-- What a line of source assembles to. -/
inductive AsmLine where
  /-- Blank, or only a comment. -/
  | blank
  /-- One request word. -/
  | word (w : ReqWord)
  /-- Refused: no row of 30 R88, or an operand outside its range. -/
  | error
deriving DecidableEq, Repr

/-- The request word of a request; a wire command has none (30 R87). -/
def requestWordOf (i : Instr) : AsmLine :=
  match encode Config.params i with
  | .request w => .word w
  | .command _ => .error

/-- Assemble one line: the text up to `;`, its first word the mnemonic, the rest the operands. -/
def assembleLine (line : List Char) : AsmLine :=
  let text := trim (line.takeWhile (· != ';'))
  if text.isEmpty then .blank
  else
    let mnemonic := text.takeWhile fun c => !isBlank c
    let rest := text.dropWhile fun c => !isBlank c
    match parseRequest mnemonic (operands rest) with
    | some i => requestWordOf i
    | none => .error

/-- The words of a program's lines in order; none if a line is refused. -/
def assembleLines : List (List Char) → Option (List ReqWord)
  | [] => some []
  | l :: ls =>
      match assembleLine l with
      | .blank => assembleLines ls
      | .word w => (assembleLines ls).map (w :: ·)
      | .error => none

/-- Assemble a program, one request per line (30 R88). -/
def assemble (source : List Char) : Option (List ReqWord) := assembleLines (splitAtChar '\n' source)

/-- A hexadecimal digit, upper case. -/
def hexDigit (n : Nat) : Char := Char.ofNat (if n < 10 then 48 + n else 55 + n)

/-- The encoded word as nine hexadecimal digits, `OP` first (30 R88). -/
def hexWord (w : ReqWord) : List Char :=
  ['0', 'x'] ++ ([32, 28, 24, 20, 16, 12, 8, 4, 0].map fun i => hexDigit (w.extractLsb' i 4).toNat)

end Sys2Proof.Machine
end

