-- ==== Sys2Proof/Machine/Timing.lean ====
section
/-! DEFINITION. Timing beside the machine: how long the actions of a program wait and how many cycles they take
(41 R121, 70 R233, R234). No step depends on it (70 R234; log 18). -/

namespace Sys2Proof.Machine

/-- The delay in microseconds (41 R121). -/
def Delay.micros (p : Params) : Delay → Nat
  | .tStart => p.tStart
  | .tBit => p.tBit
  | .tAck => p.tAck
  | .tStop => p.tStop

/-- The microseconds an action waits. -/
def Action.micros (p : Params) : Action → Nat
  | .clk _ => 0
  | .dio _ => 0
  | .wait t => t.micros p
  | .waitAck => 0

/-- The total of a program's waits (70 R233). -/
def waitMicros (p : Params) (program : List Action) : Nat := (program.map (Action.micros p)).sum

/-- The cycles of one performed action: one for a line action, `T × CYCLES_PER_US` for a wait, and one for each
sample of an acknowledge wait, here one (70 R234). -/
def Action.cycles (p : Params) : Action → Nat
  | .clk _ => 1
  | .dio _ => 1
  | .wait t => t.micros p * p.cyclesPerUs
  | .waitAck => 1

/-- The cycles of a request: one for its acceptance, then its program with one sample at each acknowledge wait and
`holds` more samples in all (70 R234). -/
def requestCycles (p : Params) (program : List Action) (holds : Nat) : Nat :=
  1 + (program.map (Action.cycles p)).sum + holds

/-- Is the action a `WAIT`? -/
def Action.isWait : Action → Bool
  | .clk _ => false
  | .dio _ => false
  | .wait _ => true
  | .waitAck => false

/-- Is the action a line action, `CLK` or `DIO`? -/
def Action.isLine : Action → Bool
  | .clk _ => true
  | .dio _ => true
  | .wait _ => false
  | .waitAck => false

end Sys2Proof.Machine
end

