-- ==== Sys2Proof/Safety.lean ====
section
/-! DEFINITION. The terms the statements use: the invariant every step keeps, what a request sends, and the input
pins of a host and a peripheral that behave in a stated way. -/

namespace Sys2Proof.Machine

/-- The action programs an accepted request loads: none, one display-control command alone, or the data-write
command and then a content frame of four patterns at address 0 (20 R57, 42 R146). -/
def LegalProgram (p : Params) (program : List Action) : Prop :=
  program = [] ∨
  (∃ b s, program = writeCommand (cmdDisplayControl p b s)) ∨
  (∃ c0 c1 c2 c3, program = contentProgram p (contentFrame p [c0, c1, c2, c3]))

/-- The lines as the block drives them, with the wire decoder. -/
def State.link (s : State) : Link := { clk := s.clkO, dio := s.dioO, wire := s.wire }

/-- `PENDING` is what is left of a legal program, and the lines and the wire decoder stand where the actions
already performed put them, from the idle-high state on (10 R24, R29). -/
def State.OnProgram (s : State) : Prop :=
  ∃ done w, LegalProgram s.params (done ++ s.pending) ∧ (Link.high w).replay done = s.link

/-- The invariant: legal parameters (00 R7), the display memory in its canonical form, `PENDING` a suffix of a legal
program with the lines to match. -/
def State.Inv (s : State) : Prop :=
  s.params.WF ∧ s.dram.wf ∧ s.OnProgram

/-- What no action of a request's program writes: the parameters, the configuration and the response register
(10 R21, R22, R30). -/
def State.SameRegisters (s t : State) : Prop :=
  t.params = s.params ∧ t.cfgBrightness = s.cfgBrightness ∧ t.cfgState = s.cfgState ∧ t.rspData = s.rspData

/-- What the wire decoder has read from the transactions closed so far is the same in both states. -/
def State.SameDisplay (s t : State) : Prop :=
  t.dram = s.dram ∧ t.dramDraw = s.dramDraw ∧ t.dctrl = s.dctrl ∧ t.dataMode = s.dataMode

/-- Input pins that present a request (30 R71). -/
def requestPins (w : ReqWord) : Pins := { rst := false, reqValid := true, reqWord := w, periphLow := false }

/-- Input pins on which the host does nothing and the peripheral pulls the data line low: an immediate acknowledge
(95, conventions). -/
def ackPins : Pins := { rst := false, reqValid := false, reqWord := 0, periphLow := true }

/-- The bits of `ARG` an operation reads; the others are "ignored" (30 R74 to R79). -/
def operandMask (op : BitVec 4) : Arg :=
  match op.toNat with
  | 1 => 0x0001FFFF
  | 2 => 0xFFFFFFFF
  | 3 => 0x00000001
  | 5 => 0x000000FF
  | _ => 0x00000000

/-- The four patterns a display write sends, positions 0 to 3 (43 R165, R168). -/
def patternsSent (p : Params) : Instr → Option (List Byte)
  | .dispDec number dots => some (withDots dots (decimalPatterns p (clamp number.toInt)))
  | .dispRaw c0 c1 c2 c3 => some [c0, c1, c2, c3]
  | .setState _ => none
  | .getState => none
  | .setBrt _ => none
  | .getBrt => none
  | .cmdDataWrite => none
  | .cmdDisplayControl _ _ => none
  | .cmdAddressSet _ => none

/-- The configuration a setter leaves, brightness and state (43 R169, R171). -/
def configSet (brightness : BitVec 3) (on : Bool) : Instr → Option (BitVec 3 × Bool)
  | .setState v => some (brightness, v)
  | .setBrt level => some (maskBrightness level, on)
  | .dispDec _ _ => none
  | .dispRaw _ _ _ _ => none
  | .getState => none
  | .getBrt => none
  | .cmdDataWrite => none
  | .cmdDisplayControl _ _ => none
  | .cmdAddressSet _ => none

/-- The answer of a getter (43 R170, R172). -/
def answerOf (s : State) : Instr → Option Byte
  | .getState => some ((BitVec.ofBool s.cfgState).setWidth 8)
  | .getBrt => some (s.cfgBrightness.setWidth 8)
  | .dispDec _ _ => none
  | .dispRaw _ _ _ _ => none
  | .setState _ => none
  | .setBrt _ => none
  | .cmdDataWrite => none
  | .cmdDisplayControl _ _ => none
  | .cmdAddressSet _ => none

/-- The request the step to come accepts, if it accepts one (41 R118). -/
def State.accepts (s : State) : Option Instr :=
  if s.params.WF ∧ s.pins.rst = false ∧ s.pending = [] ∧ s.pins.reqValid = true then
    (decodeRequest s.pins.reqWord).toOption
  else none

/-- The glyphs of a number on the four-digit display: its four digits, or the minus sign and three digits (43 R174,
law 1). -/
def glyphsOf (n : Int) : List Glyph :=
  if n < 0 then .minus :: (digits3 (-n).toNat).map .digit else (digits4 n.toNat).map .digit

end Sys2Proof.Machine
end

