-- ==== Sys2Proof/Certificates/Slice0/Obligations.lean ====
section
/-! DEFINITION. The statements for the provers. Each docstring says which rule of spec/ it formalises. -/

section

open Sys2Proof Sys2Proof.Machine

/-! ### Encoding -/

/-- 30 R72 to R83: every instruction, at every value of every operand, decodes from its own encoding, for every
choice of distinct class selectors. -/
def Obligations.DecodeEncode : Prop :=
  ∀ (p : Params) (i : Instr), p.SelectorsDistinct → decode p (encode p i) = .instr i

/-- 30 R80 to R83, R85: a byte that decodes to a command is that command's encoding, so no byte has two meanings and
no payload bit is dropped. -/
def Obligations.CommandBytesExact : Prop :=
  ∀ (p : Params) (b : Byte) (i : Instr), decodeCommand p b = .instr i → encode p i = .command b

/-- 30 R79: an `ARG` bit marked "ignored" has no effect on any state or on the trace: two request words that agree
on `OP` and on the operand bits of that operation are accepted alike in every state. -/
def Obligations.IgnoredBits : Prop :=
  ∀ (w w' : ReqWord) (s : State), opField w = opField w' →
    argField w &&& operandMask (opField w) = argField w' &&& operandMask (opField w) →
    accept w s = accept w' s

/-- 60 R201: a request word with `OP` 0x0 or 0x7 to 0xF is refused, with no next state, whatever the rest of it. -/
def Obligations.ReservedRefused : Prop :=
  ∀ (s : State), s.params.WF → s.pins.rst = false → s.pending = [] → s.pins.reqValid = true →
    (opField s.pins.reqWord = 0 ∨ 7 ≤ (opField s.pins.reqWord).toNat) →
    step s = .refused (.reservedRequest (opField s.pins.reqWord))

/-- 30 R89: the worked encodings, by the encoder, by the assembler and by the decoder. -/
def Obligations.WorkedEncodings : Prop :=
  ∀ p : Params,
    (encode p (.dispDec (-5) true) = .request 0x10001FFFB ∧
      decodeRequest 0x10001FFFB = .instr (.dispDec (-5) true) ∧
      assembleLine "DISPDEC -5, DOTS".toList = .word 0x10001FFFB) ∧
    (encode p (.dispRaw 0x3F 0x06 0x5B 0x4F) = .request 0x24F5B063F ∧
      decodeRequest 0x24F5B063F = .instr (.dispRaw 0x3F 0x06 0x5B 0x4F) ∧
      assembleLine "DISPRAW 0x3F, 0x06, 0x5B, 0x4F".toList = .word 0x24F5B063F) ∧
    (encode p (.setState true) = .request 0x300000001 ∧
      decodeRequest 0x300000001 = .instr (.setState true) ∧
      assembleLine "SETSTATE ON".toList = .word 0x300000001) ∧
    (encode p (.setBrt 7) = .request 0x500000007 ∧
      decodeRequest 0x500000007 = .instr (.setBrt 7) ∧
      assembleLine "SETBRT 7".toList = .word 0x500000007) ∧
    (encode p .getState = .request 0x400000000 ∧
      decodeRequest 0x400000000 = .instr .getState ∧
      assembleLine "GETSTATE".toList = .word 0x400000000) ∧
    (encode p .getBrt = .request 0x600000000 ∧
      decodeRequest 0x600000000 = .instr .getBrt ∧
      assembleLine "GETBRT".toList = .word 0x600000000)

/-- 30 R88: every line that assembles gives the request word of a well-formed request with its ignored `ARG` bits 0:
the word decodes to an instruction whose encoding is that same word. -/
def Obligations.AssembledWords : Prop :=
  ∀ (line : List Char) (w : ReqWord), assembleLine line = .word w →
    ∃ i, i.wellFormed = true ∧ decodeRequest w = .instr i ∧ ∀ p, encode p i = .request w

/-! ### The step and its agents -/

/-- 41 R118, 43 R164: an idle block runs the request presented: if the word decodes to `i`, the step is `exec i` at
the state in which this step's input pins are used up and `RSP_VALID` has fallen. -/
def Obligations.StepRunsRequest : Prop :=
  ∀ (s : State) (i : Instr), s.params.WF → s.pins.rst = false → s.pending = [] → s.pins.reqValid = true →
    decodeRequest s.pins.reqWord = .instr i → step s = exec i s.tick

/-- 20 R56: the stop condition of a transaction whose first byte decodes to a command `i` runs `exec i`, after the
line has been driven, the event emitted and the action removed; then the wire is clear. -/
def Obligations.StepRunsCommand : Prop :=
  ∀ (s : State) (rest : List Action) (c : Byte) (cs : List Byte) (i : Instr),
    s.params.WF → s.pins.rst = false → s.pending = .dio true :: rest →
    s.wire.stops s.clkO s.dioO true = true → s.wire.bytes = c :: cs →
    decodeCommand s.params c = .instr i →
    step s = endTransaction (exec i ((s.tick.driveDio true).emit (.dio true)).advance)

/-- 00 R7: a block whose parameters violate one of the three constraints is refused at every step. -/
def Obligations.BadParametersRefused : Prop :=
  ∀ (s : State),
    (¬ (s.params.selData ≠ s.params.selDisp ∧ s.params.selData ≠ s.params.selAddr ∧
        s.params.selDisp ≠ s.params.selAddr) ∨
      ¬ (s.params.minusPattern :: s.params.segTable.toList.take 10).Nodup ∨
      (∃ b ∈ s.params.minusPattern :: s.params.segTable.toList, b.getLsbD 7 = true)) →
    step s = .refused .badParameters

/-- 41 R118: an idle block with no request presented changes nothing and emits nothing; only the model's own input
list and draw counter move, and `RSP_VALID` falls. -/
def Obligations.IdleStep : Prop :=
  ∀ (s : State), s.params.WF → s.pins.rst = false → s.pending = [] → s.pins.reqValid = false →
    step s = .next { s with env := s.env.tail, draws := s.draws + 1, rspValid := false }

/-- 30 R71: while `BUSY` is 1 the block does nothing with a request: the step does not depend on `REQ_VALID` or
`REQ_WORD`. -/
def Obligations.RequestIgnoredWhileBusy : Prop :=
  ∀ (s : State) (now : Pins) (later : List Pins) (valid : Bool) (w : ReqWord), s.busy = true →
    s.env = now :: later →
    step { s with env := { now with reqValid := valid, reqWord := w } :: later } = step s

/-- 41 R124, R115: the data line is read only in `WAIT_ACK` steps: at any other head of `PENDING`, and when idle, the
step does not depend on the peripheral's pull. -/
def Obligations.DataReadOnlyInWait : Prop :=
  ∀ (s : State) (now : Pins) (later : List Pins) (low : Bool), s.pending.head? ≠ some .waitAck →
    s.env = now :: later →
    step { s with env := { now with periphLow := low } :: later } = step s

/-- 20 R60, 60 R205: at most one thing happens in a step: the trace grows at its end by at most one event, and no
event already there changes. -/
def Obligations.OneEventPerStep : Prop :=
  ∀ (s t : State), step s = .next t → ∃ events, t.trace = s.trace ++ events ∧ events.length ≤ 1

/-- 40 R100, 41 R123: the parameters are constant for the life of the block: no step changes one. -/
def Obligations.ParametersConstant : Prop :=
  ∀ (s t : State), step s = .next t → t.params = s.params

/-! ### Reset -/

/-- 10 R35: every piece of state at its reset value, for every value of the parameters; `State.reset` is that state
for the parameters the model names (log 1, log 2). -/
def Obligations.ResetValues : Prop :=
  (∀ p : Params,
    (State.resetWith p).cfgBrightness = p.resetBrightness ∧ (State.resetWith p).cfgState = p.resetState ∧
    (State.resetWith p).pending = [] ∧ (State.resetWith p).busy = false ∧
    (State.resetWith p).clkO = true ∧ (State.resetWith p).dioO = true ∧
    (State.resetWith p).reqReady = true ∧ (State.resetWith p).rspData = 0x00 ∧
    (State.resetWith p).rspValid = false) ∧
  State.reset = State.resetWith Config.params

/-- 70 R220: a step with `RST = 1` goes before everything else, writes every piece of state to its reset value and
emits RESET; a request presented in it is not accepted. -/
def Obligations.ResetStep : Prop :=
  ∀ (s : State), s.params.WF → s.pins.rst = true →
    ∃ t, step s = .next t ∧
      t.cfgBrightness = s.params.resetBrightness ∧ t.cfgState = s.params.resetState ∧ t.pending = [] ∧
      t.busy = false ∧ t.reqReady = true ∧ t.clkO = true ∧ t.dioO = true ∧ t.rspData = 0x00 ∧
      t.rspValid = false ∧ t.trace = s.trace ++ [.reset] ∧ t.params = s.params ∧ t.env = s.env.tail

/-- 70 R221, R225, 93 U7 in the model's form (log 9): the four display addresses, and no other (20 R51), hold a byte;
after power-up each is a free value, and after a reset that cuts a request short so are they and both settings of the
peripheral, DCTRL and the write mode of log 10, fresh for this step; a reset of an idle block leaves what the wire
decoder has read (95 V-X5). -/
def Obligations.DisplayAfterReset : Prop :=
  (∀ (s : State) (a : Nat), (s.readCell a).isSome = true ↔ a < 4) ∧
  (∀ (p : Params) (a : Nat), a < 4 →
    (State.resetWith p).readCell a = some (Config.unknownCell (State.resetWith p).dramDraw a)) ∧
  ∀ (s t : State), s.params.WF → s.pins.rst = true → step s = .next t →
    (s.busy = true →
      (∀ a, a < 4 → t.readCell a = some (Config.unknownCell (s.draws + 1) a)) ∧
      t.dctrl = Config.unknownByte (2 * (s.draws + 1)) ∧ t.dataMode = Config.unknownByte (2 * (s.draws + 1) + 1)) ∧
    (s.busy = false → s.SameDisplay t ∧ ∀ a, t.readCell a = s.readCell a)

/-- 70 R221: a reset that finds the clock high and the data low makes a stop condition, which ends the transaction on
the wire with the bytes complete so far; in every other case it makes none and leaves the transaction where it
stands. As the model's wire decoder sees it (log 7); that the rise of the clock at a reset that finds it low counts
neither as a bit nor as the ninth clock is a design choice of log 7, where the spec leaves the point open. -/
def Obligations.ResetStopCondition : Prop :=
  ∀ (s t : State), s.Inv → s.pins.rst = true → step s = .next t →
    (s.clkO = true ∧ s.dioO = false →
      t.wire = Wire.idle ∧
      ∀ later, sentFrom s.link (.reset :: later) = s.wire.bytes :: sentFrom t.link later) ∧
    (s.clkO = false ∨ s.dioO = true →
      t.wire = s.wire ∧ ∀ later, sentFrom s.link (.reset :: later) = sentFrom t.link later)

/-! ### The transport -/

/-- 41 R110: a `CLK`, `DIO` or `WAIT` action at the head of `PENDING` drives the line it names, emits its event and
removes itself; it writes no other line and no register of the block. -/
def Obligations.PerformActions : Prop :=
  ∀ (s : State) (a : Action) (rest : List Action), s.Inv → s.pins.rst = false → s.pending = a :: rest →
    a ≠ .waitAck →
    ∃ t, step s = .next t ∧ t.pending = rest ∧ t.trace = s.trace ++ [a.event] ∧
      t.clkO = (match a with | .clk v => v | _ => s.clkO) ∧
      t.dioO = (match a with | .dio v => v | _ => s.dioO) ∧
      s.SameRegisters t ∧ t.rspValid = false ∧ t.env = s.env.tail

/-- 41 R115: at a `WAIT_ACK`, a sample of 0 completes the wait, emits ACK and removes the action; a sample of 1 holds,
with no state change and no event (the model's input list and draw counter move). -/
def Obligations.WaitAckStep : Prop :=
  ∀ (s : State) (rest : List Action), s.params.WF → s.pins.rst = false → s.pending = .waitAck :: rest →
    step s = .next
      (if s.dioI then { s with env := s.env.tail, draws := s.draws + 1, rspValid := false }
       else { s with env := s.env.tail, draws := s.draws + 1, rspValid := false, pending := rest,
                     trace := s.trace ++ [.ack] })

/-- 60 R202, 10 R28: in a legal state that waits for an acknowledge the clock is low and the data line released, so
that the sample is the peripheral's alone. -/
def Obligations.WaitingLines : Prop :=
  ∀ (s : State) (rest : List Action), s.Inv → s.pending = .waitAck :: rest →
    s.clkO = false ∧ s.dioO = true ∧ s.dioI = !s.pins.periphLow

/-- 60 R202, R203: as long as the peripheral does not pull the released line low and no reset comes, the block holds
at its `WAIT_ACK`, for any number of steps and whatever the host presents: it stays busy, the lines and the trace
stay, no request is accepted and no configuration changes. -/
def Obligations.AcknowledgeHang : Prop :=
  ∀ (k : Nat) (s : State) (rest : List Action), s.params.WF → s.pending = .waitAck :: rest → s.dioO = true →
    (∀ j, j < k → ∃ now, s.env[j]? = some now ∧ now.rst = false ∧ now.periphLow = false) →
    ∃ t, core.run k s = .next t ∧ t.pending = s.pending ∧ t.busy = true ∧ t.reqReady = false ∧
      t.clkO = s.clkO ∧ t.dioO = s.dioO ∧ t.trace = s.trace ∧ t.env = s.env.drop k ∧
      s.SameRegisters t ∧ s.SameDisplay t

/-- 41 R119: in any transaction entered with both lines high, the data output changes while the clock is high exactly
twice: the falling edge in START_SEQ and the rising edge of STOP_SEQ; none in the bytes between. -/
def Obligations.StartStopOnly : Prop :=
  ∀ bytes : List Byte,
    dataEdgesWhileHigh true true (txn bytes) = [false, true] ∧
    dataEdgesWhileHigh true true startSeq = [false] ∧
    dataEdgesWhileHigh true false (bytes.flatMap byteSeq) = [] ∧
    (∀ clk dio, dataEdgesWhileHigh clk dio stopSeq = [true])

/-- 41 R120: a transaction of k bytes has exactly k acknowledge checks, 9k + 2 actions `CLK(1)` and 10k + 1 actions
`CLK(0)`, and every byte has exactly one acknowledge check. -/
def Obligations.TransactionCounts : Prop :=
  (∀ bytes : List Byte,
    (txn bytes).count .waitAck = bytes.length ∧
    (txn bytes).count (.clk true) = 9 * bytes.length + 2 ∧
    (txn bytes).count (.clk false) = 10 * bytes.length + 1) ∧
  ∀ b : Byte, (byteSeq b).count .waitAck = 1

/-- 70 R233: the length of a transaction and the total of its waits, for every number of bytes and every delay. -/
def Obligations.TransactionLength : Prop :=
  ∀ (p : Params) (bytes : List Byte),
    (txn bytes).length = 5 + 48 * bytes.length + 7 ∧
    waitMicros p (txn bytes)
      = 2 * p.tStart + bytes.length * (16 * p.tBit + 2 * p.tAck) + 3 * p.tStop

/-- 70 R233: the action counts of each request's program, with its waits, acknowledge waits and line actions. -/
def Obligations.RequestActionCounts : Prop :=
  (∀ c : Byte, (writeCommand c).length = 60 ∧ (writeCommand c).countP Action.isWait = 23 ∧
    (writeCommand c).count .waitAck = 1 ∧ (writeCommand c).countP Action.isLine = 36) ∧
  (∀ (p : Params) (c0 c1 c2 c3 : Byte),
    (contentProgram p (contentFrame p [c0, c1, c2, c3])).length = 312 ∧
    (contentProgram p (contentFrame p [c0, c1, c2, c3])).countP Action.isWait = 118 ∧
    (contentProgram p (contentFrame p [c0, c1, c2, c3])).count .waitAck = 6 ∧
    (contentProgram p (contentFrame p [c0, c1, c2, c3])).countP Action.isLine = 188)

/-- 70 R234: the cycles of a one-transaction request: one for the acceptance, one for each line action and each sample,
`CYCLES_PER_US` for each microsecond waited. -/
def Obligations.TransactionCycles : Prop :=
  ∀ (p : Params) (bytes : List Byte) (holds : Nat),
    requestCycles p (txn bytes) holds
      = 1 + (7 + 30 * bytes.length) + waitMicros p (txn bytes) * p.cyclesPerUs + holds

/-- 41 R117, 20 R52, R53: a transaction carries exactly its bytes, in order and bit for bit, and ends with both lines
high; as the wire decoder reads its trace. -/
def Obligations.TransactionCarriesItsBytes : Prop :=
  ∀ bytes : List Byte,
    sentOf ((txn bytes).map Action.event) = [bytes] ∧ Link.idle.replay (txn bytes) = Link.idle

/-! ### Command bytes -/

/-- 42 R140, R141, R143 with 30 R81 to R83: the formulas of the command encoder give the bytes of the field tables,
for every selector, payload and operand. -/
def Obligations.CommandFormulas : Prop :=
  ∀ (p : Params) (b : BitVec 3) (s : Bool) (a : BitVec 6),
    encode p .cmdDataWrite = .command (cmdDataWrite p) ∧
    encode p (.cmdDisplayControl s b) = .command (cmdDisplayControl p b s) ∧
    encode p (.cmdAddressSet a) = .command (cmdAddressSet p a)

/-- 42 R142: all sixteen display-control bytes with the default selector. -/
def Obligations.DisplayControlTable : Prop :=
  ∀ (p : Params) (b : BitVec 3), p.selDisp = 0b10 →
    (cmdDisplayControl p b false).toNat = 0x80 + b.toNat ∧
    (cmdDisplayControl p b true).toNat = 0x88 + b.toNat

/-! ### The six requests -/

/-- 43 R165: DISPLAY_DECIMAL replaces `PENDING` by the content program of the decimal frame of its operand, read as a
signed integer, and writes nothing else. -/
def Obligations.DisplayDecimal : Prop :=
  ∀ (number : BitVec 16) (dots : Bool) (s : State),
    exec (.dispDec number dots) s
      = .next { s with pending := contentProgram s.params (decimalFrame s.params number.toInt dots) }

/-- 43 R168: DISPLAY_CONTENT replaces `PENDING` by the content program of its four patterns, unchanged, behind
address-set 0, and writes nothing else. -/
def Obligations.DisplayContent : Prop :=
  ∀ (c0 c1 c2 c3 : Byte) (s : State),
    exec (.dispRaw c0 c1 c2 c3) s
      = .next { s with pending := contentProgram s.params [cmdAddressSet s.params 0, c0, c1, c2, c3] }

/-- 43 R169: SET_STATE writes CFG_STATE, and `PENDING` becomes the display-control command with the brightness kept
and the new state. -/
def Obligations.SetState : Prop :=
  ∀ (on : Bool) (s : State),
    exec (.setState on) s
      = .next { s with cfgState := on
                       pending := writeCommand (cmdDisplayControl s.params s.cfgBrightness on) }

/-- 43 R170: GET_STATE answers CFG_STATE; `PENDING` and the lines stay; straight after reset the answer is
RESET_STATE, whatever it is. -/
def Obligations.GetState : Prop :=
  (∀ s : State,
    exec .getState s
      = .next { s with rspData := (BitVec.ofBool s.cfgState).setWidth 8, rspValid := true
                       trace := s.trace ++ [.rsp ((BitVec.ofBool s.cfgState).setWidth 8)] }) ∧
  ∀ p : Params, ∃ t, exec .getState (State.resetWith p) = .next t ∧
    t.rspData = (if p.resetState then 0x01 else 0x00)

/-- 43 R171: SET_BRIGHTNESS keeps the low three bits of the level, writes them to CFG_BRIGHTNESS, and `PENDING`
becomes the display-control command with them and the state kept. -/
def Obligations.SetBrightness : Prop :=
  ∀ (level : Byte) (s : State), ∃ b : BitVec 3, b.toNat = level.toNat % 8 ∧
    exec (.setBrt level) s
      = .next { s with cfgBrightness := b
                       pending := writeCommand (cmdDisplayControl s.params b s.cfgState) }

/-- 43 R172: GET_BRIGHTNESS answers CFG_BRIGHTNESS, always in 0..7; straight after reset the answer is
RESET_BRIGHTNESS, whatever it is. -/
def Obligations.GetBrightness : Prop :=
  (∀ s : State, ∃ v : Byte, v.toNat = s.cfgBrightness.toNat ∧ v.toNat ≤ 7 ∧
    exec .getBrt s = .next { s with rspData := v, rspValid := true, trace := s.trace ++ [.rsp v] }) ∧
  ∀ p : Params, ∃ t, exec .getBrt (State.resetWith p) = .next t ∧ t.rspData.toNat = p.resetBrightness.toNat

/-- The frame of the six requests (10 R20 to R30): an accepted request changes no line, nothing the wire decoder has
read and no byte of the display memory; CFG_BRIGHTNESS changes only by SETBRT, CFG_STATE only by SETSTATE, `RSP_*`
and the trace only by the getters, `PENDING` by all but the getters. -/
def Obligations.RequestFrame : Prop :=
  ∀ (w : ReqWord) (i : Instr) (s t : State), decodeRequest w = .instr i → exec i s = .next t →
    t.params = s.params ∧ t.clkO = s.clkO ∧ t.dioO = s.dioO ∧ t.wire = s.wire ∧ s.SameDisplay t ∧
    (∀ a, t.readCell a = s.readCell a) ∧ t.env = s.env ∧ t.draws = s.draws ∧
    ((∀ level, i ≠ .setBrt level) → t.cfgBrightness = s.cfgBrightness) ∧
    ((∀ on, i ≠ .setState on) → t.cfgState = s.cfgState) ∧
    (i ≠ .getState ∧ i ≠ .getBrt →
      t.rspData = s.rspData ∧ t.rspValid = s.rspValid ∧ t.trace = s.trace) ∧
    (i = .getState ∨ i = .getBrt → t.pending = s.pending)

/-- 20 R57: the transactions each request sends, as the wire decoder reads them from its program's trace, with the
bytes they carry; a getter sends none. -/
def Obligations.TransactionsSent : Prop :=
  ∀ (i : Instr) (s t : State), exec i s = .next t →
    (∀ patterns, patternsSent s.params i = some patterns →
      sentOf (t.pending.map Action.event)
        = [[cmdDataWrite s.params], cmdAddressSet s.params 0 :: patterns] ∧ patterns.length = 4) ∧
    (∀ b on, configSet s.cfgBrightness s.cfgState i = some (b, on) →
      sentOf (t.pending.map Action.event) = [[cmdDisplayControl s.params b on]]) ∧
    (∀ v, answerOf s i = some v → t.pending = s.pending)

/-! ### Numbers and segments -/

/-- 43 R160: CLAMP on every integer, a signed comparison: below -999 it gives -999, above 9999 it gives 9999, between
them the number itself. -/
def Obligations.ClampBounds : Prop :=
  ∀ n : Int, (n < -999 → clamp n = -999) ∧ (9999 < n → clamp n = 9999) ∧
    (-999 ≤ n ∧ n ≤ 9999 → clamp n = n)

/-- 43 R161, R162: the digit splits: each digit is in 0..9 and they make up the number, leading zeros kept; DIGITS3
of a magnitude is the last three digits of DIGITS4. -/
def Obligations.DigitSplits : Prop :=
  (∀ n, n ≤ 9999 → ∃ d0 d1 d2 d3, digits4 n = [d0, d1, d2, d3] ∧ d0 ≤ 9 ∧ d1 ≤ 9 ∧ d2 ≤ 9 ∧ d3 ≤ 9 ∧
    n = 1000 * d0 + 100 * d1 + 10 * d2 + d3) ∧
  (∀ m, m ≤ 999 → ∃ e1 e2 e3, digits3 m = [e1, e2, e3] ∧ e1 ≤ 9 ∧ e2 ≤ 9 ∧ e3 ≤ 9 ∧
    m = 100 * e1 + 10 * e2 + e3 ∧ digits4 m = [0, e1, e2, e3])

/-- 43 R163: DECIMAL_FRAME byte by byte, for every integer: the address-set command for address 0, then the patterns
of the four digits of the clamped number, or the minus pattern and the three digits of its magnitude; the dots bit
is ORed into position 1 alone. -/
def Obligations.DecimalFrameBytes : Prop :=
  ∀ (p : Params) (n : Int) (dots : Bool),
    (0 ≤ clamp n → decimalFrame p n dots =
      [cmdAddressSet p 0,
       digitPattern p ((clamp n).toNat / 1000),
       digitPattern p ((clamp n).toNat / 100 % 10) ||| (if dots then 0x80 else 0),
       digitPattern p ((clamp n).toNat / 10 % 10),
       digitPattern p ((clamp n).toNat % 10)]) ∧
    (clamp n < 0 → decimalFrame p n dots =
      [cmdAddressSet p 0,
       p.minusPattern,
       digitPattern p ((-clamp n).toNat / 100) ||| (if dots then 0x80 else 0),
       digitPattern p ((-clamp n).toNat / 10 % 10),
       digitPattern p ((-clamp n).toNat % 10)])

/-- 43 R174, law 2: rendering a number is rendering its clamped value; so every number above 9999 gives the frame of
9999 and every number below -999 the frame of -999. -/
def Obligations.ClampedFrames : Prop :=
  ∀ (p : Params) (n : Int) (dots : Bool),
    decimalFrame p n dots = decimalFrame p (clamp n) dots ∧
    (9999 < n → decimalFrame p n dots = decimalFrame p 9999 dots) ∧
    (n < -999 → decimalFrame p n dots = decimalFrame p (-999) dots)

/-- 43 R174, law 1, and 40 R107: decoding the four pattern bytes of a decimal frame through the inverse of the table
gives the digits of the number, with the minus sign for a negative one, whether or not the dots are on; for every
table that meets 00 R7. -/
def Obligations.FrameDecodesToNumber : Prop :=
  ∀ (p : Params) (n : Int) (dots : Bool), p.WF → -999 ≤ n → n ≤ 9999 →
    (decimalFrame p n dots).tail.map (unseg p) = (glyphsOf n).map some

/-! ### The wire commands -/

/-- 30 R81, 95 section 3 (DCTRL): the data-write and display-control commands, read from the wire, leave their byte as
the peripheral's write mode and display-control setting, and nothing else changes (log 8, log 10). -/
def Obligations.SettingCommands : Prop :=
  ∀ s : State,
    exec .cmdDataWrite s = .next { s with dataMode := cmdDataWrite s.params } ∧
    ∀ (on : Bool) (b : BitVec 3),
      exec (.cmdDisplayControl on b) s = .next { s with dctrl := cmdDisplayControl s.params b on }

/-- 20 R56: an address-set command with start address `a` writes pattern byte k of its transaction to display address
a + k, and leaves every other display address and everything else in the state as it was. -/
def Obligations.AddressSetWrites : Prop :=
  ∀ (addr : BitVec 6) (s : State), addr.toNat ≤ 3 → addr.toNat + s.wire.bytes.tail.length ≤ 4 →
    ∃ t, exec (.cmdAddressSet addr) s = .next t ∧
      (∀ k, k < s.wire.bytes.tail.length → t.readCell (addr.toNat + k) = s.wire.bytes.tail[k]?) ∧
      (∀ a, (a < addr.toNat ∨ addr.toNat + s.wire.bytes.tail.length ≤ a) →
        t.readCell a = s.readCell a) ∧
      t = { s with dram := t.dram }

/-- 20 R51, 42 R143: where an address-set command stops: its address is above 3, or its patterns run past display
address 3 (log 11). -/
def Obligations.AddressSetStops : Prop :=
  ∀ (addr : BitVec 6) (s : State), (3 < addr.toNat ∨ 4 < addr.toNat + s.wire.bytes.tail.length) →
    exec (.cmdAddressSet addr) s = .fault (.noDisplayCell addr.toNat)

/-- The frame of the three commands: "State written: none" (42 R140, R141, R143): no register, output pin, action or
event of the block changes, only address-set writes display memory, only display-control DCTRL, and only data-write
the write mode, the model's own field (log 8, log 10). -/
def Obligations.CommandFrame : Prop :=
  ∀ (p : Params) (b : Byte) (i : Instr) (s t : State), decodeCommand p b = .instr i → exec i s = .next t →
    s.SameRegisters t ∧ t.pending = s.pending ∧ t.clkO = s.clkO ∧ t.dioO = s.dioO ∧ t.rspValid = s.rspValid ∧
    t.trace = s.trace ∧ t.env = s.env ∧ t.draws = s.draws ∧ t.wire = s.wire ∧
    ((∀ addr, i ≠ .cmdAddressSet addr) → ∀ a, t.readCell a = s.readCell a) ∧ t.dramDraw = s.dramDraw ∧
    ((∀ on v, i ≠ .cmdDisplayControl on v) → t.dctrl = s.dctrl) ∧
    (i ≠ .cmdDataWrite → t.dataMode = s.dataMode)

/-! ### Registers over a step -/

/-- 10 R21, R22, R23: over any step without a reset, CFG_BRIGHTNESS and CFG_STATE change only when a setter is
accepted, and then to what the setter says. -/
def Obligations.ConfigurationWriters : Prop :=
  ∀ (s t : State), step s = .next t → s.pins.rst = false →
    (t.cfgBrightness, t.cfgState)
      = ((s.accepts.bind (configSet s.cfgBrightness s.cfgState)).getD (s.cfgBrightness, s.cfgState))

/-- 10 R21, R22, 43 R170, R172: as long as no SETBRT is accepted after reset, CFG_BRIGHTNESS stays the parameter
RESET_BRIGHTNESS, and as long as no SETSTATE is, CFG_STATE stays RESET_STATE; so a getter answers that. -/
def Obligations.ConfigurationSinceReset : Prop :=
  ∀ (s t : State), step s = .next t →
    (s.cfgBrightness = s.params.resetBrightness → (∀ level, s.accepts ≠ some (.setBrt level)) →
      t.cfgBrightness = t.params.resetBrightness) ∧
    (s.cfgState = s.params.resetState → (∀ on, s.accepts ≠ some (.setState on)) →
      t.cfgState = t.params.resetState)

/-- 10 R30: RSP_DATA is written only by the getters, with the register each answers, and by reset, with 0x00;
RSP_VALID is 1 exactly in the step after a getter is accepted. -/
def Obligations.ResponseWriters : Prop :=
  (∀ (s t : State), step s = .next t →
    (s.pins.rst = false → t.rspData = (s.accepts.bind (answerOf s)).getD s.rspData) ∧
    (s.pins.rst = true → t.rspData = 0x00) ∧
    (t.rspValid = true ↔ (s.accepts.bind (answerOf s)).isSome = true)) ∧
  ∀ p : Params, (State.resetWith p).rspData = 0x00 ∧ (State.resetWith p).rspValid = false

/-! ### Requests to their end -/

/-- 60 R203 with its premise: if the peripheral acknowledges at every sample, a busy block performs the whole of
`PENDING`, one action per step, and ends idle with both lines high and the configuration untouched. -/
def Obligations.ProgramCompletes : Prop :=
  ∀ (s : State) (later : List Pins), s.Inv →
    s.env = List.replicate s.pending.length ackPins ++ later →
    ∃ t, core.run s.pending.length s = .next t ∧ t.pending = [] ∧ t.clkO = true ∧ t.dioO = true ∧
      t.trace = s.trace ++ s.pending.map Action.event ∧ t.env = later ∧ s.SameRegisters t

/-- 43 R169, R171, R174 law 5: a setter accepted by an idle block, with immediate acknowledges, takes 61 steps: the
configuration holds the value set, and the display-control byte the peripheral has received carries brightness and
state together; display memory and the write mode are untouched (log 7, log 8, log 10). -/
def Obligations.SetterCompletes : Prop :=
  ∀ (s : State) (w : ReqWord) (i : Instr) (b : BitVec 3) (on : Bool) (later : List Pins),
    s.Inv → s.pending = [] → decodeRequest w = .instr i →
    configSet s.cfgBrightness s.cfgState i = some (b, on) →
    s.env = requestPins w :: (List.replicate 60 ackPins ++ later) →
    ∃ t, core.run 61 s = .next t ∧ t.pending = [] ∧ t.cfgBrightness = b ∧ t.cfgState = on ∧
      t.dctrl = cmdDisplayControl s.params b on ∧ t.dram = s.dram ∧ t.dramDraw = s.dramDraw ∧
      t.dataMode = s.dataMode ∧ t.env = later ∧
      t.trace = s.trace ++ (writeCommand (cmdDisplayControl s.params b on)).map Action.event

/-- 43 R174, laws 3 and 4: SET_BRIGHTNESS(b) followed by GET_BRIGHTNESS answers b & 0x07, and SET_STATE(x) followed by
GET_STATE answers x, from any legal idle state with immediate acknowledges. -/
def Obligations.GetAfterSet : Prop :=
  ∀ (s : State) (wSet wGet : ReqWord) (later : List Pins), s.Inv → s.pending = [] →
    s.env = requestPins wSet :: (List.replicate 60 ackPins ++ requestPins wGet :: later) →
    (∀ level, decodeRequest wSet = .instr (.setBrt level) → decodeRequest wGet = .instr .getBrt →
      ∃ t, core.run 62 s = .next t ∧ t.rspData = level &&& 0x07 ∧ t.rspValid = true) ∧
    (∀ on, decodeRequest wSet = .instr (.setState on) → decodeRequest wGet = .instr .getState →
      ∃ t, core.run 62 s = .next t ∧ t.rspData = (if on then 0x01 else 0x00) ∧ t.rspValid = true)

/-- 43 R165, R167, R168, 20 R53, R56: a display write accepted by an idle block, with immediate acknowledges, takes
313 steps: the display memory then holds its four patterns at addresses 0 to 3, and the configuration and the
peripheral's display-control setting are untouched. As the model's wire decoder reads it (log 7, log 8); that the
write mode is then the data-write byte is the effect log 10, a design choice, gives that command (30 R81). -/
def Obligations.DisplayWriteCompletes : Prop :=
  ∀ (s : State) (w : ReqWord) (i : Instr) (patterns : List Byte) (later : List Pins),
    s.Inv → s.pending = [] → decodeRequest w = .instr i → patternsSent s.params i = some patterns →
    s.env = requestPins w :: (List.replicate 312 ackPins ++ later) →
    ∃ t, core.run 313 s = .next t ∧ t.pending = [] ∧ (∀ k, k < 4 → t.readCell k = patterns[k]?) ∧
      t.dctrl = s.dctrl ∧ t.dataMode = cmdDataWrite s.params ∧ s.SameRegisters t ∧ t.env = later

/-- 43 R174, law 1, to its end on the wire: after DISPDEC with any int16 in [-999, 9999], dots or no dots, and
immediate acknowledges, the display memory shows the digits of the number. -/
def Obligations.NumberShown : Prop :=
  ∀ (s : State) (w : ReqWord) (number : BitVec 16) (dots : Bool) (later : List Pins),
    s.Inv → s.pending = [] → decodeRequest w = .instr (.dispDec number dots) →
    -999 ≤ number.toInt → number.toInt ≤ 9999 →
    s.env = requestPins w :: (List.replicate 312 ackPins ++ later) →
    ∃ t, core.run 313 s = .next t ∧
      [t.glyphAt 0, t.glyphAt 1, t.glyphAt 2, t.glyphAt 3] = (glyphsOf number.toInt).map some

/-! ### Invariants -/

/-- The reset state of every block with legal parameters meets the invariant, and so does `State.reset`. -/
def Obligations.ResetInvariant : Prop :=
  (∀ p : Params, p.WF → (State.resetWith p).Inv) ∧ State.reset.Inv

/-- 10 R24, R29, 20 R57, R58, 42 R146: every step keeps the invariant: whatever the inputs, `PENDING` is what is left
of one legal program with the lines where the actions performed have put them, and the display memory keeps its
form. -/
def Obligations.StepKeepsInvariant : Prop :=
  ∀ (s t : State), s.Inv → step s = .next t → t.Inv

/-- 60 R200, R201: in a legal state no step faults, and the only refusal is that of a reserved request presented to an
idle block. -/
def Obligations.OnlyReservedRequestsStop : Prop :=
  ∀ s : State, s.Inv →
    (∀ f, step s ≠ .fault f) ∧
    (∀ r, step s = .refused r →
      s.pending = [] ∧ s.pins.rst = false ∧ s.pins.reqValid = true ∧
      r = .reservedRequest (opField s.pins.reqWord) ∧
      (opField s.pins.reqWord = 0 ∨ 7 ≤ (opField s.pins.reqWord).toNat))

/-- 10 R24: the length of `PENDING` is bounded by 312. -/
def Obligations.PendingBounded : Prop :=
  ∀ s : State, s.Inv → s.pending.length ≤ 312

/-- 10 R29: between requests both lines are at the idle-high state. -/
def Obligations.IdleLinesHigh : Prop :=
  ∀ s : State, s.Inv → s.busy = false → s.clkO = true ∧ s.dioO = true

end
end

