-- ==== Sys2Proof/Laws/Memory.lean ====
section
/-! SUPPORT. The laws of the display memory: every write keeps the canonical form, a read after a write gives the
value written, and a write leaves every other address alone. -/

namespace Sys2Proof.Machine

theorem Memory.listed_insert (m : Memory) (a b : Nat) (v : Byte) :
    (m.insert a v).listed b = if b = a then some v else Memory.listed m b := by
  induction m with
  | nil => simp [Memory.insert, Memory.listed]
  | cons c m ih =>
    obtain ⟨x, w⟩ := c
    simp only [Memory.insert]
    split
    · simp [Memory.listed]
    · split
      · subst_vars
        simp only [Memory.listed]
        split <;> simp_all
      · simp only [Memory.listed, ih]
        split
        · have : b ≠ a := by omega
          simp [this]
        · rfl

theorem Memory.mem_insert {m : Memory} {a : Nat} {v : Byte} {c : Host.Cell} (h : c ∈ m.insert a v) :
    c = (a, v) ∨ c ∈ m := by
  induction m with
  | nil => simpa [Memory.insert] using h
  | cons d m ih =>
    obtain ⟨x, w⟩ := d
    simp only [Memory.insert] at h
    split at h
    · simpa using h
    · split at h
      · rcases List.mem_cons.mp h with h | h
        · exact .inl h
        · exact .inr (List.mem_cons_of_mem _ h)
      · rcases List.mem_cons.mp h with h | h
        · exact .inr (h ▸ List.mem_cons_self)
        · exact (ih h).imp_right (List.mem_cons_of_mem _)

theorem Memory.rising_insert {m : Memory} (h : m.Pairwise (fun c d => c.1 < d.1)) (a : Nat) (v : Byte) :
    (m.insert a v).Pairwise (fun c d => c.1 < d.1) := by
  induction m with
  | nil => simp [Memory.insert]
  | cons c m ih =>
    obtain ⟨x, w⟩ := c
    obtain ⟨hx, hm⟩ := List.pairwise_cons.mp h
    simp only [Memory.insert]
    split
    case isTrue hlt =>
      refine List.pairwise_cons.mpr ⟨fun d hd => ?_, h⟩
      rcases List.mem_cons.mp hd with rfl | hd
      · exact hlt
      · exact Nat.lt_trans hlt (hx d hd)
    case isFalse hge =>
      split
      case isTrue heq => exact List.pairwise_cons.mpr ⟨fun d hd => heq ▸ hx d hd, hm⟩
      case isFalse hne =>
        refine List.pairwise_cons.mpr ⟨fun d hd => ?_, ih hm⟩
        rcases Memory.mem_insert hd with rfl | hd
        · show x < a
          omega
        · exact hx d hd

/-- A write keeps the canonical form. -/
theorem Memory.wf_write {m m' : Memory} {a : Nat} {v : Byte} (h : m.wf) (hw : m.write a v = some m') : m'.wf := by
  unfold Memory.write at hw
  split at hw
  case isTrue ha =>
    cases hw
    refine ⟨Memory.rising_insert h.1 a v, fun c hc => ?_⟩
    rcases Memory.mem_insert hc with rfl | hc
    · exact ha
    · exact h.2 c hc
  case isFalse => cases hw

/-- A write succeeds exactly on the four display addresses (20 R51). -/
theorem Memory.write_isSome (m : Memory) (a : Nat) (v : Byte) : (m.write a v).isSome ↔ a < Config.nDigits := by
  unfold Memory.write; split <;> simp_all

/-- Every display address reads as some byte, and no other address does (20 R51). -/
theorem Memory.read_isSome (m : Memory) (draw a : Nat) : (m.read draw a).isSome ↔ a < Config.nDigits := by
  unfold Memory.read; split <;> simp_all

/-- Where nothing is listed a display address reads as its free value (93 U7). -/
theorem Memory.read_nil (draw : Nat) {a : Nat} (ha : a < Config.nDigits) :
    Memory.read [] draw a = some (Memory.unlisted draw a) := by
  simp [Memory.read, Memory.listed, ha]

/-- A read after a write. -/
theorem Memory.read_write {m m' : Memory} {a : Nat} {v : Byte} (hw : m.write a v = some m') (draw b : Nat) :
    m'.read draw b = if b = a then some v else m.read draw b := by
  unfold Memory.write at hw
  split at hw
  case isTrue ha =>
    cases hw
    simp only [Memory.read, Memory.listed_insert]
    by_cases hb : b = a
    · subst hb; simp [ha]
    · simp [hb]
  case isFalse => cases hw

/-- Writing patterns from a start address on keeps the canonical form. -/
theorem Memory.wf_writeFrom {vs : List Byte} {m m' : Memory} {a : Nat} (h : m.wf)
    (hw : m.writeFrom a vs = some m') : m'.wf := by
  induction vs generalizing m a with
  | nil => cases hw; exact h
  | cons v vs ih =>
    obtain ⟨m₁, h₁, h₂⟩ := Option.bind_eq_some_iff.mp hw
    exact ih (Memory.wf_write h h₁) h₂

/-- Writing patterns succeeds when they all fall on display addresses. -/
theorem Memory.writeFrom_isSome (vs : List Byte) (m : Memory) (a : Nat) (h : a + vs.length ≤ Config.nDigits) :
    (m.writeFrom a vs).isSome := by
  induction vs generalizing m a with
  | nil => rfl
  | cons v vs ih =>
    have ha : a < Config.nDigits := by simp at h; omega
    obtain ⟨m₁, h₁⟩ := Option.isSome_iff_exists.mp ((Memory.write_isSome m a v).mpr ha)
    simp only [Memory.writeFrom, h₁, Option.bind_some]
    exact ih m₁ (a + 1) (by simp at h; omega)

/-- A read after writing patterns from `a` on: the pattern at its place, every other address as before. -/
theorem Memory.read_writeFrom {vs : List Byte} {m m' : Memory} {a : Nat} (hw : m.writeFrom a vs = some m')
    (draw b : Nat) : m'.read draw b = if a ≤ b ∧ b < a + vs.length then vs[b - a]? else m.read draw b := by
  induction vs generalizing m a with
  | nil =>
    cases hw
    have : ¬ (a ≤ b ∧ b < a) := by omega
    simp [this]
  | cons v vs ih =>
    obtain ⟨m₁, h₁, h₂⟩ := Option.bind_eq_some_iff.mp hw
    rw [ih h₂, Memory.read_write h₁]
    by_cases hb : b = a
    · subst hb
      rw [if_neg (by omega), if_pos rfl, if_pos (by simp)]
      simp
    · by_cases hlt : a < b
      · obtain ⟨k, rfl⟩ := Nat.exists_eq_add_of_lt hlt
        have e₁ : a + k + 1 - (a + 1) = k := by omega
        have e₂ : a + k + 1 - a = k + 1 := by omega
        simp only [e₁, e₂, List.getElem?_cons_succ, List.length_cons, hb, if_false]
        have : (a + 1 ≤ a + k + 1 ∧ a + k + 1 < a + 1 + vs.length) ↔
            (a ≤ a + k + 1 ∧ a + k + 1 < a + (vs.length + 1)) := by omega
        simp only [this]
      · have h₁ : ¬ (a + 1 ≤ b ∧ b < a + 1 + vs.length) := by omega
        have h₂ : ¬ (a ≤ b ∧ b < a + (v :: vs).length) := by omega
        rw [if_neg h₁, if_neg h₂, if_neg hb]

/-- The reset memory is in canonical form. -/
theorem Memory.wf_nil : Memory.wf [] := by simp [Memory.wf]

end Sys2Proof.Machine
end

