-- ==== Sys2Proof/Laws/PerInstr.lean ====
section
/-! SUPPORT. The opcode table, row by row: with the default selectors, the encoding of an instruction under its
row's mask is its row's match (spec/opcode_table.json; 30 R85). -/

namespace Sys2Proof.Laws.TableRow

/-- The default selectors and payload, which the table's wire rows use (30 R85). -/
def Defaults (p : Params) : Prop :=
  p.selData = 0b01 ∧ p.selDisp = 0b10 ∧ p.selAddr = 0b11 ∧ p.dataWritePayload = 0

/-- The mask of the instruction's row, in the low bits of a number. -/
def mask : Instr → Nat
  | .dispDec _ _ => 0xF00000000
  | .dispRaw _ _ _ _ => 0xF00000000
  | .setState _ => 0xF00000000
  | .getState => 0xF00000000
  | .setBrt _ => 0xF00000000
  | .getBrt => 0xF00000000
  | .cmdDataWrite => 0xFF
  | .cmdDisplayControl _ _ => 0xF0
  | .cmdAddressSet _ => 0xC0

/-- The match of the instruction's row. -/
def pattern : Instr → Nat
  | .dispDec _ _ => 0x100000000
  | .dispRaw _ _ _ _ => 0x200000000
  | .setState _ => 0x300000000
  | .getState => 0x400000000
  | .setBrt _ => 0x500000000
  | .getBrt => 0x600000000
  | .cmdDataWrite => 0x40
  | .cmdDisplayControl _ _ => 0x80
  | .cmdAddressSet _ => 0xC0

/-- An encoded form under a mask gives a pattern. -/
def Matches (mask pattern : Nat) : Encoded → Prop
  | .request w => w &&& BitVec.ofNat 36 mask = BitVec.ofNat 36 pattern
  | .command b => b &&& BitVec.ofNat 8 mask = BitVec.ofNat 8 pattern

/-- The instruction's encoding lies in its own row of the table. -/
def Statement (i : Instr) : Prop := ∀ p : Params, Defaults p → Matches (mask i) (pattern i) (encode p i)

/-- The rows of the requests mask the `OP` field alone (30 R72, R73). -/
theorem requestWord_and (op : BitVec 4) (arg : Arg) :
    requestWord op arg &&& 0xF00000000#36 = requestWord op 0#32 := by
  show (op ++ arg : BitVec (4 + 32)) &&& (0xF#4 ++ 0#32 : BitVec (4 + 32)) = (op ++ 0#32 : BitVec (4 + 32))
  apply BitVec.eq_of_getLsbD_eq
  intro i hi
  simp only [BitVec.getLsbD_and, BitVec.getLsbD_append]
  split
  · simp
  · have hlt : i - 32 < 4 := by omega
    have hones : ∀ j, j < 4 → (0xF#4).getLsbD j = true := by decide
    rw [hones _ hlt, Bool.and_true]

theorem dispDec (number : BitVec 16) (dots : Bool) : Statement (.dispDec number dots) := by
  intro p _
  simp only [Matches, encode, mask, pattern]
  exact (requestWord_and 1 _).trans rfl
theorem dispRaw (c0 c1 c2 c3 : Byte) : Statement (.dispRaw c0 c1 c2 c3) := by
  intro p _
  simp only [Matches, encode, mask, pattern]
  exact (requestWord_and 2 _).trans rfl
theorem setState (on : Bool) : Statement (.setState on) := by
  intro p _
  simp only [Matches, encode, mask, pattern]
  exact (requestWord_and 3 _).trans rfl
theorem getState : Statement .getState := by
  intro p _
  simp only [Matches, encode, mask, pattern]
  exact (requestWord_and 4 _).trans rfl
theorem setBrt (level : Byte) : Statement (.setBrt level) := by
  intro p _
  simp only [Matches, encode, mask, pattern]
  exact (requestWord_and 5 _).trans rfl
theorem getBrt : Statement .getBrt := by
  intro p _
  simp only [Matches, encode, mask, pattern]
  exact (requestWord_and 6 _).trans rfl
theorem cmdDataWrite : Statement .cmdDataWrite := by
  rintro p ⟨h, -, -, hp⟩
  simp only [Matches, encode, h, hp]
  decide
theorem cmdDisplayControl (on : Bool) (brightness : BitVec 3) : Statement (.cmdDisplayControl on brightness) := by
  rintro p ⟨-, h, -, -⟩
  simp only [Matches, encode, h]
  revert on brightness
  decide
theorem cmdAddressSet (addr : BitVec 6) : Statement (.cmdAddressSet addr) := by
  rintro p ⟨-, -, h, -⟩
  simp only [Matches, encode, h]
  revert addr
  decide

end Sys2Proof.Laws.TableRow
end

