-- ==== Sys2Proof/Laws/State.lean ====
section
/-! SUPPORT. What each named operation does to each field of the state: one lemma per field and operation, so
that no proof unfolds a record update. -/

namespace Sys2Proof.Machine

variable (s : State)

section tick
@[simp] theorem State.tick_params : (s.tick).params = s.params := rfl
@[simp] theorem State.tick_cfgBrightness : (s.tick).cfgBrightness = s.cfgBrightness := rfl
@[simp] theorem State.tick_cfgState : (s.tick).cfgState = s.cfgState := rfl
@[simp] theorem State.tick_pending : (s.tick).pending = s.pending := rfl
@[simp] theorem State.tick_clkO : (s.tick).clkO = s.clkO := rfl
@[simp] theorem State.tick_dioO : (s.tick).dioO = s.dioO := rfl
@[simp] theorem State.tick_rspData : (s.tick).rspData = s.rspData := rfl
@[simp] theorem State.tick_rspValid : (s.tick).rspValid = false := rfl
@[simp] theorem State.tick_env : (s.tick).env = s.env.tail := rfl
@[simp] theorem State.tick_draws : (s.tick).draws = s.draws + 1 := rfl
@[simp] theorem State.tick_trace : (s.tick).trace = s.trace := rfl
@[simp] theorem State.tick_wire : (s.tick).wire = s.wire := rfl
@[simp] theorem State.tick_dram : (s.tick).dram = s.dram := rfl
@[simp] theorem State.tick_dramDraw : (s.tick).dramDraw = s.dramDraw := rfl
@[simp] theorem State.tick_dctrl : (s.tick).dctrl = s.dctrl := rfl
@[simp] theorem State.tick_dataMode : (s.tick).dataMode = s.dataMode := rfl
end tick

section emit
variable (e : Event)
@[simp] theorem State.emit_params : (s.emit e).params = s.params := rfl
@[simp] theorem State.emit_cfgBrightness : (s.emit e).cfgBrightness = s.cfgBrightness := rfl
@[simp] theorem State.emit_cfgState : (s.emit e).cfgState = s.cfgState := rfl
@[simp] theorem State.emit_pending : (s.emit e).pending = s.pending := rfl
@[simp] theorem State.emit_clkO : (s.emit e).clkO = s.clkO := rfl
@[simp] theorem State.emit_dioO : (s.emit e).dioO = s.dioO := rfl
@[simp] theorem State.emit_rspData : (s.emit e).rspData = s.rspData := rfl
@[simp] theorem State.emit_rspValid : (s.emit e).rspValid = s.rspValid := rfl
@[simp] theorem State.emit_env : (s.emit e).env = s.env := rfl
@[simp] theorem State.emit_draws : (s.emit e).draws = s.draws := rfl
@[simp] theorem State.emit_trace : (s.emit e).trace = s.trace ++ [e] := rfl
@[simp] theorem State.emit_wire : (s.emit e).wire = s.wire := rfl
@[simp] theorem State.emit_dram : (s.emit e).dram = s.dram := rfl
@[simp] theorem State.emit_dramDraw : (s.emit e).dramDraw = s.dramDraw := rfl
@[simp] theorem State.emit_dctrl : (s.emit e).dctrl = s.dctrl := rfl
@[simp] theorem State.emit_dataMode : (s.emit e).dataMode = s.dataMode := rfl
end emit

section load
variable (program : List Action)
@[simp] theorem State.load_params : (s.load program).params = s.params := rfl
@[simp] theorem State.load_cfgBrightness : (s.load program).cfgBrightness = s.cfgBrightness := rfl
@[simp] theorem State.load_cfgState : (s.load program).cfgState = s.cfgState := rfl
@[simp] theorem State.load_pending : (s.load program).pending = program := rfl
@[simp] theorem State.load_clkO : (s.load program).clkO = s.clkO := rfl
@[simp] theorem State.load_dioO : (s.load program).dioO = s.dioO := rfl
@[simp] theorem State.load_rspData : (s.load program).rspData = s.rspData := rfl
@[simp] theorem State.load_rspValid : (s.load program).rspValid = s.rspValid := rfl
@[simp] theorem State.load_env : (s.load program).env = s.env := rfl
@[simp] theorem State.load_draws : (s.load program).draws = s.draws := rfl
@[simp] theorem State.load_trace : (s.load program).trace = s.trace := rfl
@[simp] theorem State.load_wire : (s.load program).wire = s.wire := rfl
@[simp] theorem State.load_dram : (s.load program).dram = s.dram := rfl
@[simp] theorem State.load_dramDraw : (s.load program).dramDraw = s.dramDraw := rfl
@[simp] theorem State.load_dctrl : (s.load program).dctrl = s.dctrl := rfl
@[simp] theorem State.load_dataMode : (s.load program).dataMode = s.dataMode := rfl
end load

section advance
@[simp] theorem State.advance_params : (s.advance).params = s.params := rfl
@[simp] theorem State.advance_cfgBrightness : (s.advance).cfgBrightness = s.cfgBrightness := rfl
@[simp] theorem State.advance_cfgState : (s.advance).cfgState = s.cfgState := rfl
@[simp] theorem State.advance_pending : (s.advance).pending = s.pending.tail := rfl
@[simp] theorem State.advance_clkO : (s.advance).clkO = s.clkO := rfl
@[simp] theorem State.advance_dioO : (s.advance).dioO = s.dioO := rfl
@[simp] theorem State.advance_rspData : (s.advance).rspData = s.rspData := rfl
@[simp] theorem State.advance_rspValid : (s.advance).rspValid = s.rspValid := rfl
@[simp] theorem State.advance_env : (s.advance).env = s.env := rfl
@[simp] theorem State.advance_draws : (s.advance).draws = s.draws := rfl
@[simp] theorem State.advance_trace : (s.advance).trace = s.trace := rfl
@[simp] theorem State.advance_wire : (s.advance).wire = s.wire := rfl
@[simp] theorem State.advance_dram : (s.advance).dram = s.dram := rfl
@[simp] theorem State.advance_dramDraw : (s.advance).dramDraw = s.dramDraw := rfl
@[simp] theorem State.advance_dctrl : (s.advance).dctrl = s.dctrl := rfl
@[simp] theorem State.advance_dataMode : (s.advance).dataMode = s.dataMode := rfl
end advance

section driveClk
variable (v : Bool)
@[simp] theorem State.driveClk_params : (s.driveClk v).params = s.params := rfl
@[simp] theorem State.driveClk_cfgBrightness : (s.driveClk v).cfgBrightness = s.cfgBrightness := rfl
@[simp] theorem State.driveClk_cfgState : (s.driveClk v).cfgState = s.cfgState := rfl
@[simp] theorem State.driveClk_pending : (s.driveClk v).pending = s.pending := rfl
@[simp] theorem State.driveClk_clkO : (s.driveClk v).clkO = v := rfl
@[simp] theorem State.driveClk_dioO : (s.driveClk v).dioO = s.dioO := rfl
@[simp] theorem State.driveClk_rspData : (s.driveClk v).rspData = s.rspData := rfl
@[simp] theorem State.driveClk_rspValid : (s.driveClk v).rspValid = s.rspValid := rfl
@[simp] theorem State.driveClk_env : (s.driveClk v).env = s.env := rfl
@[simp] theorem State.driveClk_draws : (s.driveClk v).draws = s.draws := rfl
@[simp] theorem State.driveClk_trace : (s.driveClk v).trace = s.trace := rfl
@[simp] theorem State.driveClk_wire : (s.driveClk v).wire = s.wire.onClk s.clkO s.dioO v := rfl
@[simp] theorem State.driveClk_dram : (s.driveClk v).dram = s.dram := rfl
@[simp] theorem State.driveClk_dramDraw : (s.driveClk v).dramDraw = s.dramDraw := rfl
@[simp] theorem State.driveClk_dctrl : (s.driveClk v).dctrl = s.dctrl := rfl
@[simp] theorem State.driveClk_dataMode : (s.driveClk v).dataMode = s.dataMode := rfl
end driveClk

section driveDio
variable (v : Bool)
@[simp] theorem State.driveDio_params : (s.driveDio v).params = s.params := rfl
@[simp] theorem State.driveDio_cfgBrightness : (s.driveDio v).cfgBrightness = s.cfgBrightness := rfl
@[simp] theorem State.driveDio_cfgState : (s.driveDio v).cfgState = s.cfgState := rfl
@[simp] theorem State.driveDio_pending : (s.driveDio v).pending = s.pending := rfl
@[simp] theorem State.driveDio_clkO : (s.driveDio v).clkO = s.clkO := rfl
@[simp] theorem State.driveDio_dioO : (s.driveDio v).dioO = v := rfl
@[simp] theorem State.driveDio_rspData : (s.driveDio v).rspData = s.rspData := rfl
@[simp] theorem State.driveDio_rspValid : (s.driveDio v).rspValid = s.rspValid := rfl
@[simp] theorem State.driveDio_env : (s.driveDio v).env = s.env := rfl
@[simp] theorem State.driveDio_draws : (s.driveDio v).draws = s.draws := rfl
@[simp] theorem State.driveDio_trace : (s.driveDio v).trace = s.trace := rfl
@[simp] theorem State.driveDio_wire : (s.driveDio v).wire = s.wire.onDio s.clkO s.dioO v := rfl
@[simp] theorem State.driveDio_dram : (s.driveDio v).dram = s.dram := rfl
@[simp] theorem State.driveDio_dramDraw : (s.driveDio v).dramDraw = s.dramDraw := rfl
@[simp] theorem State.driveDio_dctrl : (s.driveDio v).dctrl = s.dctrl := rfl
@[simp] theorem State.driveDio_dataMode : (s.driveDio v).dataMode = s.dataMode := rfl
end driveDio

section clearWire
@[simp] theorem State.clearWire_params : (s.clearWire).params = s.params := rfl
@[simp] theorem State.clearWire_cfgBrightness : (s.clearWire).cfgBrightness = s.cfgBrightness := rfl
@[simp] theorem State.clearWire_cfgState : (s.clearWire).cfgState = s.cfgState := rfl
@[simp] theorem State.clearWire_pending : (s.clearWire).pending = s.pending := rfl
@[simp] theorem State.clearWire_clkO : (s.clearWire).clkO = s.clkO := rfl
@[simp] theorem State.clearWire_dioO : (s.clearWire).dioO = s.dioO := rfl
@[simp] theorem State.clearWire_rspData : (s.clearWire).rspData = s.rspData := rfl
@[simp] theorem State.clearWire_rspValid : (s.clearWire).rspValid = s.rspValid := rfl
@[simp] theorem State.clearWire_env : (s.clearWire).env = s.env := rfl
@[simp] theorem State.clearWire_draws : (s.clearWire).draws = s.draws := rfl
@[simp] theorem State.clearWire_trace : (s.clearWire).trace = s.trace := rfl
@[simp] theorem State.clearWire_wire : (s.clearWire).wire = Wire.idle := rfl
@[simp] theorem State.clearWire_dram : (s.clearWire).dram = s.dram := rfl
@[simp] theorem State.clearWire_dramDraw : (s.clearWire).dramDraw = s.dramDraw := rfl
@[simp] theorem State.clearWire_dctrl : (s.clearWire).dctrl = s.dctrl := rfl
@[simp] theorem State.clearWire_dataMode : (s.clearWire).dataMode = s.dataMode := rfl
end clearWire

section respond
variable (v : Byte)
@[simp] theorem State.respond_params : (s.respond v).params = s.params := rfl
@[simp] theorem State.respond_cfgBrightness : (s.respond v).cfgBrightness = s.cfgBrightness := rfl
@[simp] theorem State.respond_cfgState : (s.respond v).cfgState = s.cfgState := rfl
@[simp] theorem State.respond_pending : (s.respond v).pending = s.pending := rfl
@[simp] theorem State.respond_clkO : (s.respond v).clkO = s.clkO := rfl
@[simp] theorem State.respond_dioO : (s.respond v).dioO = s.dioO := rfl
@[simp] theorem State.respond_rspData : (s.respond v).rspData = v := rfl
@[simp] theorem State.respond_rspValid : (s.respond v).rspValid = true := rfl
@[simp] theorem State.respond_env : (s.respond v).env = s.env := rfl
@[simp] theorem State.respond_draws : (s.respond v).draws = s.draws := rfl
@[simp] theorem State.respond_trace : (s.respond v).trace = s.trace ++ [.rsp v] := rfl
@[simp] theorem State.respond_wire : (s.respond v).wire = s.wire := rfl
@[simp] theorem State.respond_dram : (s.respond v).dram = s.dram := rfl
@[simp] theorem State.respond_dramDraw : (s.respond v).dramDraw = s.dramDraw := rfl
@[simp] theorem State.respond_dctrl : (s.respond v).dctrl = s.dctrl := rfl
@[simp] theorem State.respond_dataMode : (s.respond v).dataMode = s.dataMode := rfl
end respond

section setCfgState
variable (on : Bool)
@[simp] theorem State.setCfgState_params : (s.setCfgState on).params = s.params := rfl
@[simp] theorem State.setCfgState_cfgBrightness : (s.setCfgState on).cfgBrightness = s.cfgBrightness := rfl
@[simp] theorem State.setCfgState_cfgState : (s.setCfgState on).cfgState = on := rfl
@[simp] theorem State.setCfgState_pending : (s.setCfgState on).pending = s.pending := rfl
@[simp] theorem State.setCfgState_clkO : (s.setCfgState on).clkO = s.clkO := rfl
@[simp] theorem State.setCfgState_dioO : (s.setCfgState on).dioO = s.dioO := rfl
@[simp] theorem State.setCfgState_rspData : (s.setCfgState on).rspData = s.rspData := rfl
@[simp] theorem State.setCfgState_rspValid : (s.setCfgState on).rspValid = s.rspValid := rfl
@[simp] theorem State.setCfgState_env : (s.setCfgState on).env = s.env := rfl
@[simp] theorem State.setCfgState_draws : (s.setCfgState on).draws = s.draws := rfl
@[simp] theorem State.setCfgState_trace : (s.setCfgState on).trace = s.trace := rfl
@[simp] theorem State.setCfgState_wire : (s.setCfgState on).wire = s.wire := rfl
@[simp] theorem State.setCfgState_dram : (s.setCfgState on).dram = s.dram := rfl
@[simp] theorem State.setCfgState_dramDraw : (s.setCfgState on).dramDraw = s.dramDraw := rfl
@[simp] theorem State.setCfgState_dctrl : (s.setCfgState on).dctrl = s.dctrl := rfl
@[simp] theorem State.setCfgState_dataMode : (s.setCfgState on).dataMode = s.dataMode := rfl
end setCfgState

section setCfgBrightness
variable (b : BitVec 3)
@[simp] theorem State.setCfgBrightness_params : (s.setCfgBrightness b).params = s.params := rfl
@[simp] theorem State.setCfgBrightness_cfgBrightness : (s.setCfgBrightness b).cfgBrightness = b := rfl
@[simp] theorem State.setCfgBrightness_cfgState : (s.setCfgBrightness b).cfgState = s.cfgState := rfl
@[simp] theorem State.setCfgBrightness_pending : (s.setCfgBrightness b).pending = s.pending := rfl
@[simp] theorem State.setCfgBrightness_clkO : (s.setCfgBrightness b).clkO = s.clkO := rfl
@[simp] theorem State.setCfgBrightness_dioO : (s.setCfgBrightness b).dioO = s.dioO := rfl
@[simp] theorem State.setCfgBrightness_rspData : (s.setCfgBrightness b).rspData = s.rspData := rfl
@[simp] theorem State.setCfgBrightness_rspValid : (s.setCfgBrightness b).rspValid = s.rspValid := rfl
@[simp] theorem State.setCfgBrightness_env : (s.setCfgBrightness b).env = s.env := rfl
@[simp] theorem State.setCfgBrightness_draws : (s.setCfgBrightness b).draws = s.draws := rfl
@[simp] theorem State.setCfgBrightness_trace : (s.setCfgBrightness b).trace = s.trace := rfl
@[simp] theorem State.setCfgBrightness_wire : (s.setCfgBrightness b).wire = s.wire := rfl
@[simp] theorem State.setCfgBrightness_dram : (s.setCfgBrightness b).dram = s.dram := rfl
@[simp] theorem State.setCfgBrightness_dramDraw : (s.setCfgBrightness b).dramDraw = s.dramDraw := rfl
@[simp] theorem State.setCfgBrightness_dctrl : (s.setCfgBrightness b).dctrl = s.dctrl := rfl
@[simp] theorem State.setCfgBrightness_dataMode : (s.setCfgBrightness b).dataMode = s.dataMode := rfl
end setCfgBrightness

section sendDisplayControl
@[simp] theorem State.sendDisplayControl_params : (s.sendDisplayControl).params = s.params := rfl
@[simp] theorem State.sendDisplayControl_cfgBrightness : (s.sendDisplayControl).cfgBrightness = s.cfgBrightness := rfl
@[simp] theorem State.sendDisplayControl_cfgState : (s.sendDisplayControl).cfgState = s.cfgState := rfl
@[simp] theorem State.sendDisplayControl_pending :
    (s.sendDisplayControl).pending = writeCommand (cmdDisplayControl s.params s.cfgBrightness s.cfgState) := rfl
@[simp] theorem State.sendDisplayControl_clkO : (s.sendDisplayControl).clkO = s.clkO := rfl
@[simp] theorem State.sendDisplayControl_dioO : (s.sendDisplayControl).dioO = s.dioO := rfl
@[simp] theorem State.sendDisplayControl_rspData : (s.sendDisplayControl).rspData = s.rspData := rfl
@[simp] theorem State.sendDisplayControl_rspValid : (s.sendDisplayControl).rspValid = s.rspValid := rfl
@[simp] theorem State.sendDisplayControl_env : (s.sendDisplayControl).env = s.env := rfl
@[simp] theorem State.sendDisplayControl_draws : (s.sendDisplayControl).draws = s.draws := rfl
@[simp] theorem State.sendDisplayControl_trace : (s.sendDisplayControl).trace = s.trace := rfl
@[simp] theorem State.sendDisplayControl_wire : (s.sendDisplayControl).wire = s.wire := rfl
@[simp] theorem State.sendDisplayControl_dram : (s.sendDisplayControl).dram = s.dram := rfl
@[simp] theorem State.sendDisplayControl_dramDraw : (s.sendDisplayControl).dramDraw = s.dramDraw := rfl
@[simp] theorem State.sendDisplayControl_dctrl : (s.sendDisplayControl).dctrl = s.dctrl := rfl
@[simp] theorem State.sendDisplayControl_dataMode : (s.sendDisplayControl).dataMode = s.dataMode := rfl
end sendDisplayControl

section sendContent
variable (frame : List Byte)
@[simp] theorem State.sendContent_params : (s.sendContent frame).params = s.params := rfl
@[simp] theorem State.sendContent_cfgBrightness : (s.sendContent frame).cfgBrightness = s.cfgBrightness := rfl
@[simp] theorem State.sendContent_cfgState : (s.sendContent frame).cfgState = s.cfgState := rfl
@[simp] theorem State.sendContent_pending : (s.sendContent frame).pending = contentProgram s.params frame := rfl
@[simp] theorem State.sendContent_clkO : (s.sendContent frame).clkO = s.clkO := rfl
@[simp] theorem State.sendContent_dioO : (s.sendContent frame).dioO = s.dioO := rfl
@[simp] theorem State.sendContent_rspData : (s.sendContent frame).rspData = s.rspData := rfl
@[simp] theorem State.sendContent_rspValid : (s.sendContent frame).rspValid = s.rspValid := rfl
@[simp] theorem State.sendContent_env : (s.sendContent frame).env = s.env := rfl
@[simp] theorem State.sendContent_draws : (s.sendContent frame).draws = s.draws := rfl
@[simp] theorem State.sendContent_trace : (s.sendContent frame).trace = s.trace := rfl
@[simp] theorem State.sendContent_wire : (s.sendContent frame).wire = s.wire := rfl
@[simp] theorem State.sendContent_dram : (s.sendContent frame).dram = s.dram := rfl
@[simp] theorem State.sendContent_dramDraw : (s.sendContent frame).dramDraw = s.dramDraw := rfl
@[simp] theorem State.sendContent_dctrl : (s.sendContent frame).dctrl = s.dctrl := rfl
@[simp] theorem State.sendContent_dataMode : (s.sendContent frame).dataMode = s.dataMode := rfl
end sendContent

section resetStep
@[simp] theorem State.resetStep_params : (s.resetStep).params = s.params := rfl
@[simp] theorem State.resetStep_cfgBrightness : (s.resetStep).cfgBrightness = s.params.resetBrightness := rfl
@[simp] theorem State.resetStep_cfgState : (s.resetStep).cfgState = s.params.resetState := rfl
@[simp] theorem State.resetStep_pending : (s.resetStep).pending = [] := rfl
@[simp] theorem State.resetStep_clkO : (s.resetStep).clkO = true := rfl
@[simp] theorem State.resetStep_dioO : (s.resetStep).dioO = true := rfl
@[simp] theorem State.resetStep_rspData : (s.resetStep).rspData = 0x00 := rfl
@[simp] theorem State.resetStep_rspValid : (s.resetStep).rspValid = false := rfl
@[simp] theorem State.resetStep_env : (s.resetStep).env = s.env := rfl
@[simp] theorem State.resetStep_draws : (s.resetStep).draws = s.draws := rfl
@[simp] theorem State.resetStep_trace : (s.resetStep).trace = s.trace ++ [.reset] := rfl
@[simp] theorem State.resetStep_wire : (s.resetStep).wire = s.wire.onReset s.clkO s.dioO := rfl
@[simp] theorem State.resetStep_dram : (s.resetStep).dram = if s.busy then [] else s.dram := rfl
@[simp] theorem State.resetStep_dramDraw : (s.resetStep).dramDraw = if s.busy then s.draws else s.dramDraw := rfl
@[simp] theorem State.resetStep_dctrl :
    (s.resetStep).dctrl = if s.busy then Config.unknownByte (2 * s.draws) else s.dctrl := rfl
@[simp] theorem State.resetStep_dataMode :
    (s.resetStep).dataMode = if s.busy then Config.unknownByte (2 * s.draws + 1) else s.dataMode := rfl
end resetStep

end Sys2Proof.Machine
end

