-- ==== Sys2Proof/Laws/Step.lean ====
section
/-! SUPPORT. What each operation of the sequencer can do, said once: one lemma per operation, cited by the proofs
about steps instead of unfolding the sequencer. -/

namespace Sys2Proof.Machine

theorem distinctNats_iff (ns : List Nat) : distinctNats ns = true ↔ ns.Nodup := by
  induction ns with
  | nil => simp [distinctNats]
  | cons n ns ih =>
    simp only [distinctNats, Bool.and_eq_true, ih, List.nodup_cons, List.all_eq_true, Bool.not_eq_true']
    refine and_congr_left fun _ => ⟨fun h hm => ?_, fun h m hm => ?_⟩
    · exact absurd (h n hm) (by simp [Nat.beq_refl])
    · cases hb : Nat.beq n m with
      | false => rfl
      | true => exact absurd (Nat.eq_of_beq_eq_true hb ▸ hm) h

/-- The check a step makes is the constraint of 00 R7. -/
theorem paramsLegal_iff (p : Params) : paramsLegal p = true ↔ p.WF := by
  have hsel : distinctNats [p.selData.toNat, p.selDisp.toNat, p.selAddr.toNat] = true ↔ p.SelectorsDistinct := by
    simp [distinctNats_iff, Params.SelectorsDistinct, BitVec.toNat_inj, and_assoc]
  have hglyph : distinctNats ((p.minusPattern :: p.digitPatterns).map BitVec.toNat) = true ↔ p.GlyphsDistinct := by
    rw [distinctNats_iff]
    simp only [List.Nodup, List.pairwise_map, Params.GlyphsDistinct, ne_eq, BitVec.toNat_inj]
  have hbit : ∀ b : Byte, Nat.blt b.toNat 128 = true ↔ b.getLsbD 7 = false := by
    intro b
    have hm : b.msb = b.getLsbD 7 := BitVec.msb_eq_getLsbD_last b
    rw [← hm, BitVec.msb_eq_false_iff_two_mul_lt, Nat.blt_eq]
    omega
  have hall : ((p.minusPattern :: p.segTable.toList).all fun b => Nat.blt b.toNat 128) = true ↔ p.Bit7Clear := by
    rw [List.all_eq_true]
    exact forall₂_congr fun b _ => hbit b
  unfold paramsLegal
  rw [Bool.and_eq_true, Bool.and_eq_true, hsel, hglyph, hall, and_assoc]

/-- A step that uses `RST` (70 R220). -/
theorem step_rst {s : State} (hp : s.params.WF) (hr : s.pins.rst = true) : step s = .next s.tick.resetStep := by
  simp only [step, blockStep, (paramsLegal_iff _).mpr hp, if_true, hr]

/-- A step that performs the head action (41 R118). -/
theorem step_action {s : State} {a : Action} {rest : List Action} (hp : s.params.WF) (hr : s.pins.rst = false)
    (hq : s.pending = a :: rest) : step s = performAction a s.dioI s.tick := by
  simp only [step, blockStep, (paramsLegal_iff _).mpr hp, if_true, hr, hq, Bool.false_eq_true, if_false]

/-- A step that accepts the request presented (41 R118). -/
theorem step_accept {s : State} (hp : s.params.WF) (hr : s.pins.rst = false) (hq : s.pending = [])
    (hv : s.pins.reqValid = true) : step s = accept s.pins.reqWord s.tick := by
  simp only [step, blockStep, (paramsLegal_iff _).mpr hp, if_true, hr, hq, hv, Bool.false_eq_true, if_false]

/-- A step with nothing to do (41 R118). -/
theorem step_idle {s : State} (hp : s.params.WF) (hr : s.pins.rst = false) (hq : s.pending = [])
    (hv : s.pins.reqValid = false) : step s = .next s.tick := by
  simp only [step, blockStep, (paramsLegal_iff _).mpr hp, if_true, hr, hq, hv, Bool.false_eq_true, if_false]

/-- Everything a step can do: refuse the parameters, reset, perform the head action, accept, or idle. -/
theorem step_cases (s : State) :
    (¬ s.params.WF ∧ step s = .refused .badParameters) ∨
    (s.params.WF ∧ s.pins.rst = true ∧ step s = .next s.tick.resetStep) ∨
    (s.params.WF ∧ s.pins.rst = false ∧ ∃ a rest, s.pending = a :: rest ∧
      step s = performAction a s.dioI s.tick) ∨
    (s.params.WF ∧ s.pins.rst = false ∧ s.pending = [] ∧ s.pins.reqValid = true ∧
      step s = accept s.pins.reqWord s.tick) ∨
    (s.params.WF ∧ s.pins.rst = false ∧ s.pending = [] ∧ s.pins.reqValid = false ∧ step s = .next s.tick) := by
  by_cases hp : s.params.WF
  · cases hr : s.pins.rst with
    | true => exact .inr (.inl ⟨hp, rfl, step_rst hp hr⟩)
    | false =>
      cases hq : s.pending with
      | cons a rest => exact .inr (.inr (.inl ⟨hp, rfl, a, rest, rfl, step_action hp hr hq⟩))
      | nil =>
        cases hv : s.pins.reqValid with
        | true => exact .inr (.inr (.inr (.inl ⟨hp, rfl, rfl, rfl, step_accept hp hr hq hv⟩)))
        | false => exact .inr (.inr (.inr (.inr ⟨hp, rfl, rfl, rfl, step_idle hp hr hq hv⟩)))
  · exact .inl ⟨hp, by simp only [step, blockStep, if_neg (mt (paramsLegal_iff _).mp hp)]⟩

/-- If a request is accepted, its word decodes to an instruction and its own effect is the answer (43 R164). -/
theorem accept_next {w : ReqWord} {s t : State} (h : accept w s = .next t) :
    ∃ i, decodeRequest w = .instr i ∧ exec i s = .next t := by
  unfold accept at h
  split at h
  case h_1 i hi => exact ⟨i, hi, h⟩
  all_goals cases h

/-- Only a next state survives the end of a transaction, with the wire cleared. -/
theorem endTransaction_next {o : Out} {t : State} (h : endTransaction o = .next t) :
    ∃ u, o = .next u ∧ t = u.clearWire := by
  cases o with
  | next u => cases h; exact ⟨u, rfl, rfl⟩
  | fault => cases h
  | refused => cases h

/-- If a transaction closes, it was empty or its first byte is a command that answers a next state (20 R56). -/
theorem closeTransaction_next {s t : State} (h : closeTransaction s = .next t) :
    (s.wire.bytes = [] ∧ t = s.clearWire) ∨
    ∃ c rest i u, s.wire.bytes = c :: rest ∧ decodeCommand s.params c = .instr i ∧
      exec i s = .next u ∧ t = u.clearWire := by
  unfold closeTransaction at h
  split at h
  case h_1 hb =>
    obtain ⟨u, hu, rfl⟩ := endTransaction_next h
    cases hu
    exact .inl ⟨hb, rfl⟩
  case h_2 c rest hb =>
    split at h
    case h_1 i hi =>
      obtain ⟨u, hu, rfl⟩ := endTransaction_next h
      exact .inr ⟨c, rest, i, u, hb, hi, hu, rfl⟩
    all_goals cases h

/-- What performing an action can do (41 R110, R115). -/
theorem performAction_next {a : Action} {sample : Bool} {s t : State} (h : performAction a sample s = .next t) :
    (∃ v, a = .clk v ∧ t = ((s.driveClk v).emit (.clk v)).advance) ∨
    (∃ v, a = .dio v ∧ s.wire.stops s.clkO s.dioO v = false ∧ t = ((s.driveDio v).emit (.dio v)).advance) ∨
    (∃ v, a = .dio v ∧ s.wire.stops s.clkO s.dioO v = true ∧
      closeTransaction ((s.driveDio v).emit (.dio v)).advance = .next t) ∨
    (∃ d, a = .wait d ∧ t = (s.emit (.wait d)).advance) ∨
    (a = .waitAck ∧ sample = false ∧ t = (s.emit .ack).advance) ∨
    (a = .waitAck ∧ sample = true ∧ t = s) := by
  cases a with
  | clk v => cases h; exact .inl ⟨v, rfl, rfl⟩
  | dio v =>
    simp only [performAction, performDio] at h
    split at h
    case isTrue hs => exact .inr (.inr (.inl ⟨v, rfl, hs, h⟩))
    case isFalse hs => cases h; exact .inr (.inl ⟨v, rfl, by simpa using hs, rfl⟩)
  | wait d => cases h; exact .inr (.inr (.inr (.inl ⟨d, rfl, rfl⟩)))
  | waitAck =>
    simp only [performAction, performWaitAck] at h
    split at h
    case isTrue hs => cases h; exact .inr (.inr (.inr (.inr (.inr ⟨rfl, hs, rfl⟩))))
    case isFalse hs =>
      cases h
      exact .inr (.inr (.inr (.inr (.inl ⟨rfl, by simpa using hs, rfl⟩))))

/-- If the address-set command answers a next state, its address is a display address and the patterns on the wire
have been written from it on (20 R56). -/
theorem execCmdAddressSet_next {addr : BitVec 6} {s t : State} (h : execCmdAddressSet addr s = .next t) :
    ∃ dram, addr.toNat < Config.nDigits ∧ s.dram.writeFrom addr.toNat s.patternsOnWire = some dram ∧
      t = { s with dram := dram } := by
  unfold execCmdAddressSet at h
  split at h
  case isTrue ha =>
    split at h
    case h_1 dram hd => cases h; exact ⟨dram, ha, hd, rfl⟩
    case h_2 => cases h
  case isFalse => cases h

/-- A run of one more step, when the first answers a next state. -/
theorem run_succ {s t : State} (h : step s = .next t) (k : Nat) : core.run (k + 1) s = core.run k t := by
  have h' : core.step s = .next t := h
  simp only [Host.Core.run, h']

/-- A run of `j + k` steps is a run of `j` and then one of `k`. -/
theorem run_add {s t : State} {j : Nat} (h : core.run j s = .next t) (k : Nat) :
    core.run (j + k) s = core.run k t := by
  induction j generalizing s with
  | zero => cases h; rw [Nat.zero_add]
  | succ j ih =>
    rw [Nat.succ_add]
    cases hs : core.step s with
    | next u =>
      simp only [Host.Core.run, hs] at h ⊢
      exact ih h
    | fault f => simp only [Host.Core.run, hs] at h; cases h
    | refused r => simp only [Host.Core.run, hs] at h; cases h

end Sys2Proof.Machine
end

