-- ==== Sys2Proof/Laws/Transport.lean ====
section
/-! SUPPORT. What the wire decoder reads from the action lists of the transport, one lemma per list, and how the
replay of a list of actions splits. -/

namespace Sys2Proof.Machine

set_option maxRecDepth 20000 in
/-- The wire decoder puts the bits of a byte together again in the order they were sent (20 R52). -/
theorem byteOf_bitsOf : ∀ b : Byte, byteOf (bitsOf b) = b := by
  have h : ∀ n : Fin 256, byteOf (bitsOf (BitVec.ofFin n)) = BitVec.ofFin n := by decide
  exact fun b => h b.toFin

@[simp] theorem Link.replay_nil (l : Link) : l.replay [] = l := rfl

@[simp] theorem Link.replay_cons (l : Link) (a : Action) (as : List Action) :
    l.replay (a :: as) = (l.act a).replay as := rfl

theorem Link.replay_append (l : Link) (as bs : List Action) :
    l.replay (as ++ bs) = (l.replay as).replay bs := List.foldl_append ..

/-- From the idle-high state, whatever a reset has left on the wire, `START_SEQ` opens a transaction with the clock
high and the data low (41 R111). -/
theorem Link.replay_startSeq (w : Wire) :
    (Link.high w).replay startSeq = { clk := true, dio := false, wire := ⟨true, [], []⟩ } := by
  simp [Link.high, startSeq, Link.act, Wire.onClk, Wire.onDio, Wire.stops]

/-- A reset that makes a stop condition ends the transaction (70 R221). -/
theorem Wire.onReset_stop {w : Wire} {clk dio : Bool} (h : w.stops clk dio true = true) :
    w.onReset clk dio = Wire.idle := if_pos h

/-- A reset that makes none leaves the wire as it is (70 R221; with the clock low a choice of log 7). -/
theorem Wire.onReset_keep {w : Wire} {clk dio : Bool} (h : w.stops clk dio true = false) :
    w.onReset clk dio = w := if_neg (by simp [h])

/-- What a reset event adds to the transactions: the one on the wire, if it makes a stop condition (70 R221). -/
theorem sentFrom_reset (l : Link) (es : List Event) :
    sentFrom l (.reset :: es)
      = (if l.wire.stops l.clk l.dio true then [l.wire.bytes] else []) ++ sentFrom l.reset es := by
  simp only [sentFrom]
  split <;> rfl

/-- A bit cell presents its bit to the wire decoder and leaves the clock high (41 R113). -/
theorem Link.replay_bitCell (c d v : Bool) (bits : List Bool) (bs : List Byte) (h : bits.length < 8) :
    Link.replay { clk := c, dio := d, wire := ⟨true, bits, bs⟩ } (bitCell v)
      = { clk := true, dio := v, wire := ⟨true, bits ++ [v], bs⟩ } := by
  simp [bitCell, Link.act, Wire.onClk, Wire.onDio, Wire.stops, h]

/-- The acknowledge clock closes the byte and leaves the clock low and the data released (41 R114). -/
theorem Link.replay_ackSeq (c d : Bool) (bits : List Bool) (bs : List Byte) (h : bits.length = 8) :
    Link.replay { clk := c, dio := d, wire := ⟨true, bits, bs⟩ } ackSeq
      = { clk := false, dio := true, wire := ⟨true, [], bs ++ [byteOf bits]⟩ } := by
  simp [ackSeq, Link.act, Wire.onClk, Wire.onDio, Wire.stops, h]

/-- A byte shifted inside a transaction reaches the wire decoder, and leaves the clock low and the data released
(41 R116). -/
theorem Link.replay_byteSeq (c d : Bool) (bs : List Byte) (b : Byte) :
    Link.replay { clk := c, dio := d, wire := ⟨true, [], bs⟩ } (byteSeq b)
      = { clk := false, dio := true, wire := ⟨true, [], bs ++ [b]⟩ } := by
  simpa [byteSeq, bitsOf, Link.replay_append, Link.replay_bitCell, Link.replay_ackSeq]
    using byteOf_bitsOf b

/-- What a list of actions sends comes before what the events after it send, read from where the actions leave the
link. -/
theorem sentFrom_append (as : List Action) (l : Link) (es : List Event) :
    sentFrom l (as.map Action.event ++ es)
      = sentFrom l (as.map Action.event) ++ sentFrom (l.replay as) es := by
  induction as generalizing l with
  | nil => simp [sentFrom]
  | cons a as ih =>
    cases a with
    | clk v => simp only [List.map_cons, Action.event, List.cons_append, sentFrom, Link.replay_cons, ih]
    | dio v =>
      simp only [List.map_cons, Action.event, List.cons_append, sentFrom, Link.replay_cons, ih]
      split <;> rfl
    | wait d => exact ih l
    | waitAck => exact ih l

/-- `STOP_SEQ` from the clock low and the data released leaves the idle-high state (41 R112). -/
theorem Link.replay_stopSeq (bs : List Byte) :
    Link.replay { clk := false, dio := true, wire := ⟨true, [], bs⟩ } stopSeq = Link.idle := rfl

end Sys2Proof.Machine
end

