-- ==== Sys2Proof/Tests/Slice0.lean ====
section
/-! SUPPORT. The model's own tests: expected results from the spec's examples and vectors (95), each named in its
comment; and for every statement with hypotheses a witness that meets them. -/

namespace Sys2Proof.Tests

open Sys2Proof Sys2Proof.Machine

/-- The default parameters with RESET_BRIGHTNESS 4 and RESET_STATE 1 (95 V-X2). -/
def defaults : Params := Config.defaultsWith 1 4 true

/-- Just after reset with them. -/
def base : State := State.resetWith defaults

/-- The next state, if there is one. -/
def nextState : Out → Option State
  | .next s => some s
  | .fault _ => none
  | .refused _ => none

/-- The refusal, if the outcome is one. -/
def refusal : Out → Option Refusal
  | .next _ => none
  | .fault _ => none
  | .refused r => some r

/-- The fault, if the outcome is one. -/
def faultOf : Out → Option Fault
  | .next _ => none
  | .fault f => some f
  | .refused _ => none

/-- `SETBRT 3` with CFG_STATE 1 loads this program; its byte is 0x8B (95 V-X2). -/
def program : List Action := writeCommand (cmdDisplayControl defaults 3 true)

/-- The state in which `k` actions of that program have been performed. -/
def atAction (k : Nat) (env : List Pins) : State :=
  { base with
    pending := program.drop k, env := env
    clkO := (Link.idle.replay (program.take k)).clk
    dioO := (Link.idle.replay (program.take k)).dio
    wire := (Link.idle.replay (program.take k)).wire }

/-- Pins with no acknowledge. -/
def noAckPins : Pins := quietPins

/-- Pins with RST. -/
def rstPins : Pins := { quietPins with rst := true }

theorem defaults_wf : defaults.WF := by decide

/-- The block of `State.reset` has legal parameters and its delays and cycles in their ranges (93 U8, 00 R6). -/
theorem reset_params_in_range : Config.params.WF ∧ Config.params.TimingInRange :=
  ⟨by decide, by decide, by decide, by decide, by decide, Nat.succ_pos _⟩

theorem base_inv : base.Inv := ⟨defaults_wf, Memory.wf_nil, [], Wire.idle, .inl rfl, rfl⟩

theorem withEnv_inv {s : State} (h : s.Inv) (env : List Pins) : State.Inv { s with env := env } := h

theorem atAction_inv (k : Nat) (env : List Pins) : (atAction k env).Inv :=
  ⟨defaults_wf, Memory.wf_nil, program.take k, Wire.idle,
    .inr (.inl ⟨3, true, List.take_append_drop k program⟩), rfl⟩

/-! ### Well-formedness smoke test (42 R143: "legal 0–3") -/

theorem test_address_four_ill_formed : (Instr.cmdAddressSet 4).wellFormed = false := by decide
theorem test_address_three_well_formed : (Instr.cmdAddressSet 3).wellFormed = true := by decide

/-! ### Words written out from the spec's encodings -/

/-- 95 V-S2, 30 R89: OP 0001, ignored 0, DOTS 1, NUMBER -5. -/
theorem test_decode_dispdec :
    decodeRequest 0b0001_000000000000000_1_1111111111111011#36 = .instr (.dispDec (-5) true) := by decide
/-- 95 V-D4: every ignored bit of DISPDEC set. -/
theorem test_decode_dispdec_ignored : decodeRequest 0x1FFFE04D2 = .instr (.dispDec 1234 false) := by decide
/-- 95 V-D5: OP 0010, C3 0x3F, C2 0x38, C1 0x79, C0 0x76. -/
theorem test_decode_dispraw :
    decodeRequest 0b0010_00111111_00111000_01111001_01110110#36 = .instr (.dispRaw 0x76 0x79 0x38 0x3F) := by decide
/-- 95 V-D4: OP 0011, only ARG[0] counts. -/
theorem test_decode_setstate : decodeRequest 0x3FFFFFFFF = .instr (.setState true) := by decide
theorem test_decode_setstate_off : decodeRequest 0x3FFFFFFFE = .instr (.setState false) := by decide
/-- 30 R78: OP 0100, all of ARG ignored. -/
theorem test_decode_getstate : decodeRequest 0x4DEADBEEF = .instr .getState := by decide
/-- 30 R77: OP 0101, LEVEL = ARG[7:0]. -/
theorem test_decode_setbrt : decodeRequest 0b0101_000000000000000000000000_00001101#36 = .instr (.setBrt 13) := by decide
/-- 30 R78: OP 0110. -/
theorem test_decode_getbrt : decodeRequest 0x600000000 = .instr .getBrt := by decide
/-- 95 V-C1: SEL 01, payload 000000. -/
theorem test_decode_data_write : decodeCommand defaults 0b01_000000#8 = .instr .cmdDataWrite := by decide
/-- 42 R142: SEL 10, 00, ON 1, BRIGHTNESS 101. -/
theorem test_decode_display_control : decodeCommand defaults 0b10_00_1_101#8 = .instr (.cmdDisplayControl true 5) := by decide
/-- 95 V-C2: SEL 11, ADDR 000010. -/
theorem test_decode_address_set : decodeCommand defaults 0b11_000010#8 = .instr (.cmdAddressSet 2) := by decide
/-- 95 V-X1: reserved operations. -/
theorem test_decode_reserved :
    decodeRequest 0x000000000 = .reservedOp 0 ∧ decodeRequest 0x700000000 = .reservedOp 7 ∧
    decodeRequest 0xF00000000 = .reservedOp 15 := by decide
/-- 30 R85: the unused selector; 30 R82: bits 5:4 set. -/
theorem test_decode_no_command :
    decodeCommand defaults 0x3F = .notACommand 0x3F ∧ decodeCommand defaults 0x9D = .notACommand 0x9D ∧
    decodeCommand defaults 0x44 = .notACommand 0x44 := by decide
/-- The host's numbering of the same words. -/
theorem test_decodeTableWord :
    decodeTableWord 40 0x10001FFFB = some (.dispDec (-5) true) ∧ decodeTableWord 8 0x40 = some .cmdDataWrite ∧
    decodeTableWord 40 0x700000000 = none ∧ decodeTableWord 40 0x1100000000 = none := by decide

/-! ### The assembler (30 R88) -/

theorem test_assemble_program :
    assemble "SETBRT 7 ; boot\nSETSTATE ON\n\nDISPDEC 0x4D2".toList = some [0x500000007, 0x300000001, 0x1000004D2] := by
  decide
/-- "refuses an operand outside its range". -/
theorem test_assemble_out_of_range :
    assembleLine "SETBRT 256".toList = .error ∧ assembleLine "DISPDEC 32768".toList = .error ∧
    assembleLine "DISPDEC -32768".toList = .word 0x100008000 := by decide
/-- "nine hexadecimal digits, `OP` first". -/
theorem test_hexWord : hexWord 0x1000004D2 = "0x1000004D2".toList := by decide

/-! ### Numbers, segments, frames (95 V-D1 to V-D3, V-E) -/

theorem test_clamp_corners :
    clamp (-32768) = -999 ∧ clamp (-1000) = -999 ∧ clamp (-999) = -999 ∧ clamp (-1) = -1 ∧
    clamp 9999 = 9999 ∧ clamp 10000 = 9999 := by decide
theorem test_digits : digits4 10 = [0, 0, 1, 0] ∧ digits4 9999 = [9, 9, 9, 9] ∧ digits3 99 = [0, 9, 9] := by decide
/-- V-S2. -/
theorem test_frame_minus_five : decimalFrame defaults (-5) true = [0xC0, 0x40, 0xBF, 0x3F, 0x6D] := by decide
/-- V-D3: `DISPDEC 808, DOTS`. -/
theorem test_frame_dots : decimalFrame defaults 808 true = [0xC0, 0x3F, 0xFF, 0x3F, 0x7F] := by decide
/-- V-D3: `DISPDEC -32768, DOTS`. -/
theorem test_frame_clamped : decimalFrame defaults (-32768) true = [0xC0, 0x40, 0xEF, 0x6F, 0x6F] := by decide
/-- 95, section 2.1. -/
theorem test_unseg :
    unseg defaults 0xBF = some (.digit 0) ∧ unseg defaults 0x40 = some .minus ∧ unseg defaults 0x00 = none ∧
    unseg defaults 0x77 = none ∧ unseg defaults 0x6F = some (.digit 9) := by decide
/-- V-C3. -/
theorem test_display_control_corners :
    cmdDisplayControl defaults 0 false = 0x80 ∧ cmdDisplayControl defaults 7 true = 0x8F ∧
    cmdDisplayControl defaults 0 true = 0x88 ∧ cmdDisplayControl defaults 7 false = 0x87 := by decide

/-! ### The transport (95 V-T1 to V-T9) -/

/-- V-T1: the third bit of 0xAB is 0, the eighth 1; then the acknowledge begins. -/
theorem test_byteSeq_bits :
    bitsOf 0xAB = [true, true, false, true, false, true, false, true] ∧
    (byteSeq 0xAB).drop 40 = [.clk false, .wait .tAck, .dio true, .waitAck, .dio true, .clk true, .wait .tAck,
      .clk false] := by decide
/-- V-T1: the counts of its 60 events. -/
theorem test_txn_counts :
    (txn [0xAB]).length = 60 ∧ (txn [0xAB]).count (.clk true) = 11 ∧ (txn [0xAB]).count (.clk false) = 11 ∧
    (txn [0xAB]).countP Action.isWait = 23 := by decide
/-- V-T1, V-T8: 115 microseconds and, at one cycle per microsecond, 1 + 36 + 115 + 1 cycles (70 R234). -/
theorem test_wait_time :
    waitMicros defaults (txn [0xAB]) = 115 ∧ requestCycles defaults (txn [0xAB]) 0 = 153 := by decide
/-- V-T1: the wire decoder reads the byte back. -/
theorem test_sent : sentOf ((txn [0xAB]).map Action.event) = [[0xAB]] := by decide

/-! ### One step each -/

set_option maxRecDepth 20000 in
/-- V-S1: the acceptance of `DISPDEC 1234` loads 312 actions, the first a `DIO(1)`, and touches no line. -/
theorem test_step_dispdec :
    (nextState (step (base.withRequest 0x1000004D2))).map
      (fun t => (t.pending.length, t.pending.head?, t.clkO, t.dioO, t.trace))
      = some (312, some (.dio true), true, true, []) := by decide
set_option maxRecDepth 20000 in
/-- V-D5: bit 7 survives at every position. -/
theorem test_step_dispraw :
    (nextState (step (base.withRequest 0x2FF000080))).map (fun t => sentOf (t.pending.map Action.event))
      = some [[0x40], [0xC0, 0x80, 0x00, 0x00, 0xFF]] := by decide
/-- 43 R169's example: with CFG_BRIGHTNESS 3, `SETSTATE ON` sends 0x8B. -/
theorem test_step_setstate :
    (nextState (step ({ base with cfgBrightness := 3, cfgState := false }.withRequest 0x300000001))).map
      (fun t => (t.cfgState, t.cfgBrightness, sentOf (t.pending.map Action.event)))
      = some (true, 3, [[0x8B]]) := by decide
/-- V-D6: GETSTATE answers in its one step. -/
theorem test_step_getstate :
    (nextState (step (base.withRequest 0x400000000))).map
      (fun t => (t.rspData, t.rspValid, t.pending, t.trace)) = some (0x01, true, [], [.rsp 0x01]) := by decide
/-- 43 R171's example: with CFG_STATE 1, `SETBRT 13` sends 0x8D and leaves 5. -/
theorem test_step_setbrt :
    (nextState (step (base.withRequest 0x50000000D))).map
      (fun t => (t.cfgBrightness, sentOf (t.pending.map Action.event))) = some (5, [[0x8D]]) := by decide
/-- V-X3: GETBRT after a reset with RESET_BRIGHTNESS 4. -/
theorem test_step_getbrt :
    (nextState (step (base.withRequest 0x600000000))).map (fun t => (t.rspData, t.trace))
      = some (0x04, [.rsp 0x04]) := by decide
/-- The stop of a data-write transaction records its byte. -/
theorem test_step_data_write :
    (nextState (step (base.withFetchWord 8 0x40))).map (fun t => (t.dataMode, t.wire, t.dioO))
      = some (0x40, Wire.idle, true) := by decide
/-- The stop of a display-control transaction: DCTRL is its byte. -/
theorem test_step_display_control :
    (nextState (step (base.withFetchWord 8 0x8D))).map (fun t => t.dctrl) = some 0x8D := by decide
/-- 20 R56: the patterns behind address-set 0 go to DRAM[0..3]. -/
theorem test_step_address_set :
    (nextState (step { base.withCommand 0xC0 with
      wire := { active := true, bits := [], bytes := [0xC0, 0x06, 0x5B, 0x4F, 0x66] } })).map (fun t => t.dram)
      = some [(0, 0x06), (1, 0x5B), (2, 0x4F), (3, 0x66)] := by decide
/-- V-X1, PROG-4: a reserved word is refused. -/
theorem test_step_reserved :
    refusal (step (base.withRequest 0x700000000)) = some (.reservedRequest 7) := by decide
/-- 20 R51: there is no display address 4. -/
theorem test_address_set_stops : faultOf (exec (.cmdAddressSet 4) base) = some (.noDisplayCell 4) := by decide
/-- V-X2: after 48 actions the block waits with the clock low, the line released and 12 actions left; a high sample
holds. -/
theorem test_hang :
    (atAction 48 []).pending.length = 12 ∧ (atAction 48 []).clkO = false ∧ (atAction 48 []).dioO = true ∧
    (nextState (step (atAction 48 [noAckPins]))).map (fun t => (t.pending.length, t.trace)) = some (12, []) := by
  decide
/-- V-X4: a reset just after a start condition "is a stop condition with no byte". -/
theorem test_reset_mid_request :
    (atAction 4 []).dioO = false ∧
    (nextState (step (atAction 4 [rstPins]))).map
      (fun t => (t.pending, t.dioO, t.cfgBrightness, t.cfgState, t.trace))
      = some ([], true, 4, true, [.reset]) ∧
    sentOf [.dio true, .clk true, .wait .tStart, .dio false, .reset] = [[]] := by decide
set_option maxRecDepth 20000 in
/-- PROG-3: a reset at the acknowledge, the clock low; "no stop was sent for the 0x8B transaction". -/
theorem test_reset_in_hang :
    sentOf ((program.take 48).map Action.event ++ [.reset]) = [] ∧
    (nextState (step (atAction 48 [rstPins]))).map (fun t => t.wire.active) = some true := by decide
/-- PROG-1: the display memory after power-up is any value, at each of its four addresses. -/
theorem test_power_up_display :
    base.readCell 3 = some (Config.unknownCell base.dramDraw 3) ∧ base.readCell 4 = none := ⟨rfl, rfl⟩
/-- From `State.reset` itself a request runs as the first instruction. -/
theorem test_first_step_from_reset :
    (nextState (step (State.reset.withFetchWord 40 0x500000003))).map (fun t => t.cfgBrightness) = some 3 := by decide

/-! ### Witnesses: the hypotheses of each statement can be met -/

theorem witness_decodeEncode : defaults.SelectorsDistinct := by decide

/-- One byte of each class. -/
theorem witness_commandBytesExact :
    decodeCommand defaults 0x40 = .instr .cmdDataWrite ∧
    decodeCommand defaults 0x80 = .instr (.cmdDisplayControl false 0) ∧
    decodeCommand defaults 0xFF = .instr (.cmdAddressSet 63) := by decide

theorem witness_ignoredBits :
    opField 0x1FFFE04D2 = opField 0x1000004D2 ∧
    argField 0x1FFFE04D2 &&& operandMask (opField 0x1FFFE04D2)
      = argField 0x1000004D2 &&& operandMask (opField 0x1FFFE04D2) := by decide

theorem witness_reservedRefused (w : ReqWord) (h : w = 0x000000000 ∨ w = 0x7FFFFFFFF ∨ w = 0xF00000000) :
    (base.withRequest w).params.WF ∧ (base.withRequest w).pins.rst = false ∧
    (base.withRequest w).pending = [] ∧ (base.withRequest w).pins.reqValid = true ∧
    (opField (base.withRequest w).pins.reqWord = 0 ∨ 7 ≤ (opField (base.withRequest w).pins.reqWord).toNat) := by
  refine ⟨defaults_wf, rfl, rfl, rfl, ?_⟩
  rcases h with rfl | rfl | rfl <;> decide

theorem witness_assembledWords : assembleLine "SETBRT 255".toList = .word 0x5000000FF := by decide

theorem witness_stepRunsRequest :
    (base.withRequest 0x300000001).params.WF ∧ (base.withRequest 0x300000001).pins.rst = false ∧
    (base.withRequest 0x300000001).pending = [] ∧ (base.withRequest 0x300000001).pins.reqValid = true ∧
    decodeRequest (base.withRequest 0x300000001).pins.reqWord = .instr (.setState true) :=
  ⟨defaults_wf, rfl, rfl, rfl, by decide⟩

theorem witness_stepRunsCommand :
    (base.withCommand 0xC0).params.WF ∧ (base.withCommand 0xC0).pins.rst = false ∧
    (base.withCommand 0xC0).pending = [.dio true] ∧
    (base.withCommand 0xC0).wire.stops (base.withCommand 0xC0).clkO (base.withCommand 0xC0).dioO true = true ∧
    (base.withCommand 0xC0).wire.bytes = [0xC0] ∧
    decodeCommand (base.withCommand 0xC0).params 0xC0 = .instr (.cmdAddressSet 0) :=
  ⟨defaults_wf, rfl, rfl, rfl, rfl, by decide⟩

/-- One configuration for each constraint of 00 R7. -/
theorem witness_badParameters :
    ¬ ({ defaults with selDisp := 0b01 } : Params).SelectorsDistinct ∧
    ¬ ({ defaults with minusPattern := 0x6F } : Params).GlyphsDistinct ∧
    (∃ b ∈ ({ defaults with minusPattern := 0xC0 } : Params).minusPattern :: defaults.segTable.toList,
      b.getLsbD 7 = true) := by decide

theorem witness_idleStep :
    base.params.WF ∧ base.pins.rst = false ∧ base.pending = [] ∧ base.pins.reqValid = false :=
  ⟨defaults_wf, rfl, rfl, rfl⟩

theorem witness_requestIgnoredWhileBusy :
    (atAction 48 [noAckPins]).busy = true ∧ (atAction 48 [noAckPins]).env = noAckPins :: [] := by
  decide

/-- The two kinds of head: idle, and an action that is no wait for an acknowledge. -/
theorem witness_dataReadOnlyInWait :
    (({ base with env := [noAckPins] } : State).pending.head? ≠ some .waitAck ∧
      ({ base with env := [noAckPins] } : State).env = noAckPins :: []) ∧
    (atAction 47 [noAckPins]).pending.head? ≠ some .waitAck ∧ (atAction 47 [noAckPins]).env = noAckPins :: [] := by
  decide

/-- A step that answers a next state. -/
theorem witness_step : step base = .next base.tick :=
  step_idle defaults_wf rfl rfl rfl

theorem witness_reset (k : Nat) : (atAction k [rstPins]).params.WF ∧ (atAction k [rstPins]).pins.rst = true ∧
    step (atAction k [rstPins]) = .next (atAction k [rstPins]).tick.resetStep :=
  ⟨defaults_wf, rfl, step_rst defaults_wf rfl⟩

/-- Resets of a busy block and of an idle one. -/
theorem witness_displayAfterReset :
    ((atAction 59 [rstPins]).params.WF ∧ (atAction 59 [rstPins]).pins.rst = true ∧
      step (atAction 59 [rstPins]) = .next (atAction 59 [rstPins]).tick.resetStep ∧
      (atAction 59 [rstPins]).busy = true) ∧
    ((atAction 60 [rstPins]).params.WF ∧ (atAction 60 [rstPins]).pins.rst = true ∧
      step (atAction 60 [rstPins]) = .next (atAction 60 [rstPins]).tick.resetStep ∧
      (atAction 60 [rstPins]).busy = false) :=
  ⟨⟨defaults_wf, rfl, step_rst defaults_wf rfl, by decide⟩, defaults_wf, rfl, step_rst defaults_wf rfl, by decide⟩

set_option maxRecDepth 20000 in
/-- Resets that find the clock high and the data low, the clock low, and both high in the middle of a byte. -/
theorem witness_resetStopCondition :
    (∀ k, (atAction k [rstPins]).Inv ∧ (atAction k [rstPins]).pins.rst = true ∧
      step (atAction k [rstPins]) = .next (atAction k [rstPins]).tick.resetStep) ∧
    ((atAction 4 []).clkO = true ∧ (atAction 4 []).dioO = false) ∧ (atAction 48 []).clkO = false ∧
    ((atAction 9 []).clkO = true ∧ (atAction 9 []).dioO = true ∧ (atAction 9 []).wire.bits = [true]) :=
  ⟨fun k => ⟨atAction_inv k _, rfl, step_rst defaults_wf rfl⟩, by decide, by decide, by decide⟩

set_option maxRecDepth 20000 in
/-- A `DIO`, a `CLK`, a `WAIT`, and the `DIO` that is the stop condition, each at the head in a legal state. -/
theorem witness_performActions :
    (∀ k, (atAction k []).Inv ∧ (atAction k []).pins.rst = false) ∧
    (atAction 0 []).pending = .dio true :: program.drop 1 ∧
    (atAction 1 []).pending = .clk true :: program.drop 2 ∧
    (atAction 2 []).pending = .wait .tStart :: program.drop 3 ∧
    (atAction 59 []).pending = .dio true :: [] ∧
    (atAction 59 []).wire.stops (atAction 59 []).clkO (atAction 59 []).dioO true = true :=
  ⟨fun k => ⟨atAction_inv k [], rfl⟩, by decide, by decide, by decide, by decide, by decide⟩

/-- A wait for an acknowledge in a legal state, with a sample of 1 and with a sample of 0. -/
theorem witness_waitAck :
    ((atAction 48 [noAckPins]).Inv ∧ (atAction 48 [noAckPins]).params.WF ∧
      (atAction 48 [noAckPins]).pins.rst = false ∧
      (atAction 48 [noAckPins]).pending = .waitAck :: program.drop 49 ∧ (atAction 48 [noAckPins]).dioI = true) ∧
    ((atAction 48 [ackPins]).Inv ∧ (atAction 48 [ackPins]).params.WF ∧
      (atAction 48 [ackPins]).pins.rst = false ∧
      (atAction 48 [ackPins]).pending = .waitAck :: program.drop 49 ∧ (atAction 48 [ackPins]).dioI = false) :=
  ⟨⟨atAction_inv _ _, defaults_wf, rfl, by decide, by decide⟩, atAction_inv _ _, defaults_wf, rfl, by decide, by decide⟩

/-- Three steps without an acknowledge. -/
theorem witness_acknowledgeHang :
    (atAction 48 [noAckPins, noAckPins, noAckPins]).params.WF ∧
    (atAction 48 [noAckPins, noAckPins, noAckPins]).pending = .waitAck :: program.drop 49 ∧
    (atAction 48 [noAckPins, noAckPins, noAckPins]).dioO = true ∧
    ∀ j, j < 3 → ∃ now, (atAction 48 [noAckPins, noAckPins, noAckPins]).env[j]? = some now ∧
      now.rst = false ∧ now.periphLow = false := by
  refine ⟨defaults_wf, by decide, by decide, fun j hj => ⟨noAckPins, ?_, rfl, rfl⟩⟩
  match j, hj with
  | 0, _ => rfl
  | 1, _ => rfl
  | 2, _ => rfl

theorem witness_displayControlTable : defaults.selDisp = 0b10 := by decide

/-- A request of each kind decodes and answers a next state. -/
theorem witness_requestFrame :
    (decodeRequest 0x100000005 = .instr (.dispDec 5 false) ∧ ∃ t, exec (.dispDec 5 false) base = .next t) ∧
    (decodeRequest 0x200000000 = .instr (.dispRaw 0 0 0 0) ∧ ∃ t, exec (.dispRaw 0 0 0 0) base = .next t) ∧
    (decodeRequest 0x300000000 = .instr (.setState false) ∧ ∃ t, exec (.setState false) base = .next t) ∧
    (decodeRequest 0x400000000 = .instr .getState ∧ ∃ t, exec .getState base = .next t) ∧
    (decodeRequest 0x500000007 = .instr (.setBrt 7) ∧ ∃ t, exec (.setBrt 7) base = .next t) ∧
    (decodeRequest 0x600000000 = .instr .getBrt ∧ ∃ t, exec .getBrt base = .next t) :=
  ⟨⟨by decide, _, rfl⟩, ⟨by decide, _, rfl⟩, ⟨by decide, _, rfl⟩, ⟨by decide, _, rfl⟩, ⟨by decide, _, rfl⟩,
    by decide, _, rfl⟩

/-- A command of each kind decodes and answers a next state. -/
theorem witness_commandFrame :
    (decodeCommand defaults 0x40 = .instr .cmdDataWrite ∧ ∃ t, exec .cmdDataWrite base = .next t) ∧
    (decodeCommand defaults 0x8F = .instr (.cmdDisplayControl true 7) ∧
      ∃ t, exec (.cmdDisplayControl true 7) base = .next t) ∧
    (decodeCommand defaults 0xC3 = .instr (.cmdAddressSet 3) ∧ ∃ t, exec (.cmdAddressSet 3) base = .next t) :=
  ⟨⟨by decide, _, rfl⟩, ⟨by decide, _, rfl⟩, by decide, _, rfl⟩

/-- Each clause of the transactions statement: a display write, a setter, a getter. -/
theorem witness_transactionsSent :
    ((∃ t, exec (.dispRaw 1 2 3 4) base = .next t) ∧
      patternsSent base.params (.dispRaw 1 2 3 4) = some [1, 2, 3, 4]) ∧
    ((∃ t, exec (.setBrt 8) base = .next t) ∧
      configSet base.cfgBrightness base.cfgState (.setBrt 8) = some (0, true)) ∧
    ((∃ t, exec .getBrt base = .next t) ∧ answerOf base .getBrt = some 0x04) :=
  ⟨⟨⟨_, rfl⟩, by decide⟩, ⟨⟨_, rfl⟩, by decide⟩, ⟨_, rfl⟩, by decide⟩

/-- The bounds of the number statements, on both sides. -/
theorem witness_numbers :
    (0 ≤ clamp 0 ∧ clamp (-1) < 0) ∧ ((9999 : Int) < 10000 ∧ (-1000 : Int) < -999) ∧
    ((9999 : Nat) ≤ 9999 ∧ (999 : Nat) ≤ 999) := by decide

/-- The two ends of the numbers whose frame decodes to them. -/
theorem witness_frameDecodesToNumber :
    (defaults.WF ∧ (-999 : Int) ≤ -999 ∧ (-999 : Int) ≤ 9999) ∧
    (defaults.WF ∧ (-999 : Int) ≤ 9999 ∧ (9999 : Int) ≤ 9999) :=
  ⟨⟨defaults_wf, by decide, by decide⟩, defaults_wf, by decide, by decide⟩

/-- The base state with a transaction of these bytes on the wire. -/
def onWire (bytes : List Byte) : State := { base with wire := { active := true, bits := [], bytes := bytes } }

/-- Address-set with four patterns at 0 and with one at 3 completes; with none at 4, or two at 3, it stops. -/
theorem witness_addressSet :
    ((0 : BitVec 6).toNat ≤ 3 ∧ (0 : BitVec 6).toNat + (onWire [0xC0, 1, 2, 3, 4]).wire.bytes.tail.length ≤ 4) ∧
    ((3 : BitVec 6).toNat ≤ 3 ∧ (3 : BitVec 6).toNat + (onWire [0xC3, 1]).wire.bytes.tail.length ≤ 4) ∧
    (3 < (4 : BitVec 6).toNat) ∧
    (4 < (3 : BitVec 6).toNat + (onWire [0xC3, 1, 2]).wire.bytes.tail.length) := by decide

/-- Steps that accept a setter, accept a getter and accept nothing, for the statements about registers over a
step. -/
theorem witness_accepts :
    ((∃ t, step (base.withRequest 0x500000002) = .next t) ∧ (base.withRequest 0x500000002).pins.rst = false ∧
      (base.withRequest 0x500000002).accepts = some (.setBrt 2)) ∧
    ((∃ t, step (base.withRequest 0x400000000) = .next t) ∧ (base.withRequest 0x400000000).pins.rst = false ∧
      (base.withRequest 0x400000000).accepts = some .getState) ∧
    ((∃ t, step base = .next t) ∧ base.pins.rst = false ∧ base.accepts = none) :=
  ⟨⟨⟨_, rfl⟩, rfl, by decide⟩, ⟨⟨_, rfl⟩, rfl, by decide⟩, ⟨_, rfl⟩, rfl, by decide⟩

/-- An idle step right after reset, with both configuration fields at their reset parameters; and one that accepts
the setter of the other field. -/
theorem witness_configurationSinceReset :
    ((∃ t, step base = .next t) ∧ base.cfgBrightness = base.params.resetBrightness ∧
      base.cfgState = base.params.resetState ∧ base.accepts = none) ∧
    ((∃ t, step (base.withRequest 0x300000000) = .next t) ∧
      (base.withRequest 0x300000000).accepts = some (.setState false)) ∧
    ((∃ t, step (base.withRequest 0x500000002) = .next t) ∧
      (base.withRequest 0x500000002).accepts = some (.setBrt 2)) :=
  ⟨⟨⟨_, rfl⟩, rfl, rfl, by decide⟩, ⟨⟨_, rfl⟩, by decide⟩, ⟨_, rfl⟩, by decide⟩

set_option maxRecDepth 20000 in
/-- In the middle of a request, at its acknowledge. -/
theorem witness_programCompletes :
    (atAction 48 (List.replicate 12 ackPins)).Inv ∧
    (atAction 48 (List.replicate 12 ackPins)).env
      = List.replicate (atAction 48 (List.replicate 12 ackPins)).pending.length ackPins ++ [] :=
  ⟨atAction_inv _ _, by decide⟩

/-- An idle legal state with a request and immediate acknowledges. -/
def loaded (w : ReqWord) (n : Nat) (later : List Pins) : State :=
  { base with env := requestPins w :: (List.replicate n ackPins ++ later) }

theorem loaded_inv (w : ReqWord) (n : Nat) (later : List Pins) : (loaded w n later).Inv := base_inv

/-- Both setters. -/
theorem witness_setterCompletes :
    ((loaded 0x500000007 60 []).Inv ∧ (loaded 0x500000007 60 []).pending = [] ∧
      decodeRequest 0x500000007 = .instr (.setBrt 7) ∧
      configSet (loaded 0x500000007 60 []).cfgBrightness (loaded 0x500000007 60 []).cfgState (.setBrt 7)
        = some (7, true) ∧
      (loaded 0x500000007 60 []).env = requestPins 0x500000007 :: (List.replicate 60 ackPins ++ [])) ∧
    ((loaded 0x300000000 60 []).Inv ∧ (loaded 0x300000000 60 []).pending = [] ∧
      decodeRequest 0x300000000 = .instr (.setState false) ∧
      configSet (loaded 0x300000000 60 []).cfgBrightness (loaded 0x300000000 60 []).cfgState (.setState false)
        = some (4, false) ∧
      (loaded 0x300000000 60 []).env = requestPins 0x300000000 :: (List.replicate 60 ackPins ++ [])) :=
  ⟨⟨loaded_inv _ _ _, rfl, by decide, by decide, rfl⟩, loaded_inv _ _ _, rfl, by decide, by decide, rfl⟩

/-- Both pairs of a setter and its getter. -/
theorem witness_getAfterSet :
    ((loaded 0x5000000FF 60 [requestPins 0x600000000]).Inv ∧
      (loaded 0x5000000FF 60 [requestPins 0x600000000]).pending = [] ∧
      (loaded 0x5000000FF 60 [requestPins 0x600000000]).env
        = requestPins 0x5000000FF :: (List.replicate 60 ackPins ++ requestPins 0x600000000 :: []) ∧
      decodeRequest 0x5000000FF = .instr (.setBrt 255) ∧ decodeRequest 0x600000000 = .instr .getBrt) ∧
    ((loaded 0x300000001 60 [requestPins 0x400000000]).Inv ∧
      (loaded 0x300000001 60 [requestPins 0x400000000]).pending = [] ∧
      (loaded 0x300000001 60 [requestPins 0x400000000]).env
        = requestPins 0x300000001 :: (List.replicate 60 ackPins ++ requestPins 0x400000000 :: []) ∧
      decodeRequest 0x300000001 = .instr (.setState true) ∧ decodeRequest 0x400000000 = .instr .getState) :=
  ⟨⟨loaded_inv _ _ _, rfl, rfl, by decide, by decide⟩, loaded_inv _ _ _, rfl, rfl, by decide, by decide⟩

/-- A raw write (95 V-D5). -/
theorem witness_displayWriteCompletes :
    (loaded 0x23F387976 312 []).Inv ∧ (loaded 0x23F387976 312 []).pending = [] ∧
    decodeRequest 0x23F387976 = .instr (.dispRaw 0x76 0x79 0x38 0x3F) ∧
    patternsSent (loaded 0x23F387976 312 []).params (.dispRaw 0x76 0x79 0x38 0x3F)
      = some [0x76, 0x79, 0x38, 0x3F] ∧
    (loaded 0x23F387976 312 []).env = requestPins 0x23F387976 :: (List.replicate 312 ackPins ++ []) :=
  ⟨loaded_inv _ _ _, rfl, by decide, by decide, rfl⟩

/-- The lowest and the highest number shown whole. -/
theorem witness_numberShown :
    ((loaded 0x10000FC19 312 []).Inv ∧ (loaded 0x10000FC19 312 []).pending = [] ∧
      decodeRequest 0x10000FC19 = .instr (.dispDec (-999) false) ∧
      -999 ≤ (-999 : BitVec 16).toInt ∧ (-999 : BitVec 16).toInt ≤ 9999 ∧
      (loaded 0x10000FC19 312 []).env = requestPins 0x10000FC19 :: (List.replicate 312 ackPins ++ [])) ∧
    ((loaded 0x10001270F 312 []).Inv ∧ (loaded 0x10001270F 312 []).pending = [] ∧
      decodeRequest 0x10001270F = .instr (.dispDec 9999 true) ∧
      -999 ≤ (9999 : BitVec 16).toInt ∧ (9999 : BitVec 16).toInt ≤ 9999 ∧
      (loaded 0x10001270F 312 []).env = requestPins 0x10001270F :: (List.replicate 312 ackPins ++ [])) :=
  ⟨⟨loaded_inv _ _ _, rfl, by decide, by decide, by decide, rfl⟩,
    loaded_inv _ _ _, rfl, by decide, by decide, by decide, rfl⟩

/-- A legal state whose step is refused. -/
theorem witness_onlyReservedRequestsStop :
    (base.withRequest 0x700000000).Inv ∧
    step (base.withRequest 0x700000000) = .refused (.reservedRequest 7) :=
  ⟨base_inv, rfl⟩

set_option maxRecDepth 20000 in
/-- A legal state in the middle of a request, at its stop condition, whose step answers a next state; and a legal
idle one. -/
theorem witness_stepKeepsInvariant :
    ((atAction 59 []).Inv ∧ (nextState (step (atAction 59 []))).isSome) ∧ (base.Inv ∧ base.busy = false) :=
  ⟨⟨atAction_inv 59 [], by decide⟩, base_inv, rfl⟩

end Sys2Proof.Tests
end

section
/-! PROOF. The refusal of parameters that violate 00 R7. -/

namespace Sys2Proof.Machine

/-- A step of a block whose parameters violate 00 R7. -/
theorem step_badParameters {s : State} (hp : ¬ s.params.WF) : step s = .refused .badParameters := by
  simp only [step, blockStep, if_neg (mt (paramsLegal_iff _).mp hp)]

/-- Settles O9: legal parameters meet the three constraints of 00 R7, so a violation of any one makes the step refuse. -/
theorem badParametersRefused : Obligations.BadParametersRefused := by
  intro s hviolated
  refine step_badParameters fun ⟨hsel, hglyphs, hbit7⟩ => ?_
  obtain hsel' | hglyphs' | ⟨b, hmem, hset⟩ := hviolated
  · exact hsel' hsel
  · exact hglyphs' hglyphs
  · exact absurd (hbit7 b hmem) (by simp [hset])

end Sys2Proof.Machine
end

section
/-! PROOF. The state of the block (10, sections 1 and 6): its reset values, and who writes the configuration and the
response register. -/

namespace Sys2Proof.Machine

/-- Settles O15: `State.resetWith` gives each register and pin the value of the table of 10 R35, and the two flags are
computed from its empty `PENDING`. -/
theorem resetValues : Obligations.ResetValues :=
  ⟨fun _ => ⟨rfl, rfl, rfl, rfl, rfl, rfl, rfl, rfl, rfl⟩, rfl⟩

/-! ### What an instruction writes -/

/-- What an instruction leaves in the parameters, the configuration and the response: a setter's value, a getter's
answer, and the rest as it was (43 R165 to R172, 42 R140 to R143). -/
theorem exec_registers {i : Instr} {s t : State} (h : exec i s = .next t) :
    t.params = s.params ∧
    (t.cfgBrightness, t.cfgState)
      = (configSet s.cfgBrightness s.cfgState i).getD (s.cfgBrightness, s.cfgState) ∧
    t.rspData = (answerOf s i).getD s.rspData ∧
    t.rspValid = ((answerOf s i).isSome || s.rspValid) := by
  cases i with
  | cmdAddressSet addr =>
    obtain ⟨dram, -, -, rfl⟩ := execCmdAddressSet_next h
    exact ⟨rfl, rfl, rfl, rfl⟩
  | _ => cases h; exact ⟨rfl, rfl, rfl, rfl⟩

/-- A command byte decodes to neither a setter nor a getter (30 R80 to R83). -/
theorem decodeCommand_writes_no_register {p : Params} {c : Byte} {i : Instr}
    (h : decodeCommand p c = .instr i) :
    (∀ b on, configSet b on i = none) ∧ ∀ s, answerOf s i = none := by
  unfold decodeCommand at h
  split_ifs at h <;> cases h <;> exact ⟨fun _ _ => rfl, fun _ => rfl⟩

/-- A wire command writes no register of the block: "State written: none" (42 R140, R141, R143). -/
theorem exec_command_registers {p : Params} {c : Byte} {i : Instr} {s t : State}
    (hc : decodeCommand p c = .instr i) (h : exec i s = .next t) :
    s.SameRegisters t ∧ t.rspValid = s.rspValid := by
  obtain ⟨hset, hanswer⟩ := decodeCommand_writes_no_register hc
  obtain ⟨hparams, hcfg, hdata, hvalid⟩ := exec_registers h
  rw [hset] at hcfg
  rw [hanswer] at hdata hvalid
  obtain ⟨hbrightness, hstate⟩ := Prod.mk.inj hcfg
  exact ⟨⟨hparams, hbrightness, hstate, hdata⟩, hvalid⟩

/-! ### What an action and a step write -/

theorem closeTransaction_registers {s t : State} (h : closeTransaction s = .next t) :
    s.SameRegisters t ∧ t.rspValid = s.rspValid := by
  obtain ⟨-, rfl⟩ | ⟨c, rest, i, u, -, hc, hu, rfl⟩ := closeTransaction_next h
  · exact ⟨⟨rfl, rfl, rfl, rfl⟩, rfl⟩
  · exact (exec_command_registers hc hu :)

/-- Performing an action writes no register of the block, the stop condition that runs a wire command included
(41 R110, R115). -/
theorem performAction_registers {a : Action} {sample : Bool} {s t : State}
    (h : performAction a sample s = .next t) : s.SameRegisters t ∧ t.rspValid = s.rspValid := by
  obtain ⟨v, -, rfl⟩ | ⟨v, -, -, rfl⟩ | ⟨v, -, -, hclose⟩ | ⟨d, -, rfl⟩ | ⟨-, -, rfl⟩ | ⟨-, -, rfl⟩ :=
    performAction_next h
  case inr.inr.inl => exact (closeTransaction_registers hclose :)
  all_goals exact ⟨⟨rfl, rfl, rfl, rfl⟩, rfl⟩

theorem State.accepts_of_rst {s : State} (hr : s.pins.rst = true) : s.accepts = none := by
  simp [State.accepts, hr]

/-- A step without a reset either accepts nothing and leaves every register as it was, `RSP_VALID` falling, or runs
the request it accepts (41 R118, 43 R164). -/
theorem step_registers {s t : State} (h : step s = .next t) (hr : s.pins.rst = false) :
    (s.accepts = none ∧ s.SameRegisters t ∧ t.rspValid = false) ∨
    ∃ i, s.accepts = some i ∧ exec i s.tick = .next t := by
  obtain ⟨-, hs⟩ | ⟨-, hr', -⟩ | ⟨-, -, a, rest, hq, hs⟩ | ⟨hp, -, hq, hv, hs⟩ | ⟨-, -, -, hv, hs⟩ := step_cases s
  · cases hs.symm.trans h
  · simp [hr] at hr'
  · exact .inl ⟨by simp [State.accepts, hq], performAction_registers (hs.symm.trans h)⟩
  · obtain ⟨i, hi, he⟩ := accept_next (hs.symm.trans h)
    exact .inr ⟨i, by rw [State.accepts, if_pos ⟨hp, hr, hq, hv⟩, hi, Decoded.toOption], he⟩
  · cases hs.symm.trans h
    exact .inl ⟨by simp [State.accepts, hv], ⟨rfl, rfl, rfl, rfl⟩, rfl⟩

/-- A step with `RST` leaves the response register cleared (10 R30, 70 R220). -/
theorem step_rst_response {s t : State} (h : step s = .next t) (hr : s.pins.rst = true) :
    t.rspData = 0x00 ∧ t.rspValid = false := by
  by_cases hp : s.params.WF
  · cases (step_rst hp hr).symm.trans h
    exact ⟨rfl, rfl⟩
  · cases (step_badParameters hp).symm.trans h

@[simp] theorem answerOf_tick (s : State) : answerOf s.tick = answerOf s := rfl

/-- What a step without a reset leaves in the response register (10 R30). -/
theorem step_response {s t : State} (h : step s = .next t) (hr : s.pins.rst = false) :
    t.rspData = (s.accepts.bind (answerOf s)).getD s.rspData ∧
    t.rspValid = (s.accepts.bind (answerOf s)).isSome := by
  obtain ⟨hnone, ⟨-, -, -, hdata⟩, hvalid⟩ | ⟨i, hi, he⟩ := step_registers h hr
  · simp [hnone, hdata, hvalid]
  · obtain ⟨-, -, hdata, hvalid⟩ := exec_registers he
    simp [hi, hdata, hvalid]

/-! ### The statements -/

/-- Settles O47: the step accepts nothing and keeps the registers, or it runs the request it accepts, and that writes
what `configSet` says. -/
theorem configurationWriters : Obligations.ConfigurationWriters := by
  intro s t h hr
  obtain ⟨hnone, ⟨-, hbrightness, hstate, -⟩, -⟩ | ⟨i, hi, he⟩ := step_registers h hr
  · simp [hnone, hbrightness, hstate]
  · obtain ⟨-, hcfg, -⟩ := exec_registers he
    simpa [hi] using hcfg

/-- Settles O48: a step with a reset clears the response and accepts nothing, and any other step writes what the
getter it accepts answers, if it accepts one. -/
theorem responseWriters : Obligations.ResponseWriters := by
  refine ⟨fun s t h => ⟨fun hr => (step_response h hr).1, fun hr => (step_rst_response h hr).1, ?_⟩,
    fun _ => ⟨rfl, rfl⟩⟩
  cases hr : s.pins.rst with
  | true => simp [(step_rst_response h hr).2, State.accepts_of_rst hr]
  | false => rw [(step_response h hr).2]

end Sys2Proof.Machine
end

section
/-! PROOF. What a list of actions sends, as the wire decoder reads it: a transaction sends its bytes and leaves the
idle-high state (20 R56, 41 R117). -/

namespace Sys2Proof.Machine

/-- What two lists of actions send, one after the other. -/
theorem sentFrom_map_append (as bs : List Action) (l : Link) :
    sentFrom l ((as ++ bs).map Action.event)
      = sentFrom l (as.map Action.event) ++ sentFrom (l.replay as) (bs.map Action.event) := by
  rw [List.map_append, sentFrom_append]

/-- Blocks of actions that each send nothing, from any link, send nothing one after the other. -/
theorem sentFrom_flatMap_eq_nil {α : Type} (xs : List α) (f : α → List Action)
    (h : ∀ x l, sentFrom l ((f x).map Action.event) = []) (l : Link) :
    sentFrom l ((xs.flatMap f).map Action.event) = [] := by
  induction xs generalizing l with
  | nil => rfl
  | cons x xs ih =>
    rw [List.flatMap_cons, sentFrom_map_append, h, ih, List.append_nil]

/-- `START_SEQ` ends no transaction when the data line is high before it (41 R111). -/
theorem sentFrom_startSeq (w : Wire) : sentFrom (Link.high w) (startSeq.map Action.event) = [] := by
  simp [startSeq, Action.event, sentFrom, Link.act, Link.high, Wire.stops]

/-- A bit cell moves the data line only while the clock is low, so it ends no transaction (41 R113, R119). -/
theorem sentFrom_bitCell (v : Bool) (l : Link) : sentFrom l ((bitCell v).map Action.event) = [] := by
  simp [bitCell, Action.event, sentFrom, Link.act, Wire.stops]

/-- The acknowledge moves the data line only while the clock is low, so it ends no transaction (41 R114, R119). -/
theorem sentFrom_ackSeq (l : Link) : sentFrom l (ackSeq.map Action.event) = [] := by
  simp [ackSeq, Action.event, sentFrom, Link.act, Wire.stops]

/-- Shifting a byte ends no transaction (41 R116, R119). -/
theorem sentFrom_byteSeq (b : Byte) (l : Link) : sentFrom l ((byteSeq b).map Action.event) = [] := by
  rw [byteSeq, sentFrom_map_append, sentFrom_flatMap_eq_nil _ _ sentFrom_bitCell, sentFrom_ackSeq, List.append_nil]

/-- Bytes shifted inside a transaction reach the wire decoder in order (41 R117). -/
theorem Link.replay_bytes_wire (bytes : List Byte) {l : Link} {bs : List Byte} (h : l.wire = ⟨true, [], bs⟩) :
    (l.replay (bytes.flatMap byteSeq)).wire = ⟨true, [], bs ++ bytes⟩ := by
  induction bytes generalizing l bs with
  | nil => simpa using h
  | cons b bytes ih =>
    obtain ⟨clk, dio, wire⟩ := l
    subst h
    rw [List.flatMap_cons, Link.replay_append, Link.replay_byteSeq, ih rfl, List.append_assoc, List.singleton_append]

/-- `STOP_SEQ` after whole bytes, or after none, ends the transaction with the bytes it carried and leaves the
idle-high state (41 R112). -/
theorem stopSeq_ends {l : Link} {bs : List Byte} (h : l.wire = ⟨true, [], bs⟩) :
    sentFrom l (stopSeq.map Action.event) = [bs] ∧ l.replay stopSeq = Link.idle := by
  obtain ⟨clk, dio, wire⟩ := l
  subst h
  simp [stopSeq, Action.event, sentFrom, Link.act, Wire.stops, Wire.onClk, Wire.onDio, Link.idle, Link.high]

/-- A transaction entered with both lines high sends exactly its bytes and leaves the idle-high state, whatever a
reset has left on the wire before it (20 R56, 41 R117). -/
theorem txn_sends (w : Wire) (bytes : List Byte) :
    sentFrom (Link.high w) ((txn bytes).map Action.event) = [bytes] ∧
    (Link.high w).replay (txn bytes) = Link.idle := by
  have hstart := Link.replay_startSeq w
  have hbytes : (((Link.high w).replay startSeq).replay (bytes.flatMap byteSeq)).wire = ⟨true, [], bytes⟩ :=
    Link.replay_bytes_wire bytes (bs := []) (by rw [hstart])
  obtain ⟨hsent, hidle⟩ := stopSeq_ends hbytes
  constructor
  · rw [txn, sentFrom_map_append, sentFrom_map_append, Link.replay_append, hsent, sentFrom_startSeq,
      sentFrom_flatMap_eq_nil _ _ sentFrom_byteSeq, List.nil_append, List.nil_append]
  · rw [txn, Link.replay_append, Link.replay_append, hidle]

/-- A single command is sent as a transaction of its one byte (42 R144). -/
theorem sentOf_writeCommand (c : Byte) : sentOf ((writeCommand c).map Action.event) = [[c]] :=
  (txn_sends Wire.idle [c]).1

/-- A content program sends the data-write command alone and then its frame (43 R166). -/
theorem sentOf_contentProgram (p : Params) (frame : List Byte) :
    sentOf ((contentProgram p frame).map Action.event) = [[cmdDataWrite p], frame] := by
  obtain ⟨hcommand, hidle⟩ := txn_sends Wire.idle [cmdDataWrite p]
  obtain ⟨hframe, -⟩ := txn_sends Wire.idle frame
  rw [sentOf, contentProgram, writeCommand, sentFrom_map_append, Link.idle, hcommand, hidle, Link.idle, hframe,
    List.singleton_append]

end Sys2Proof.Machine
end

section
/-! PROOF. The display memory and what reaches it (20, sections 3 and 4): the program each request loads, and what an
address-set command writes. -/

namespace Sys2Proof.Machine

/-! ### The program a request loads -/

theorem decimalPatterns_length (p : Params) (n : Int) : (decimalPatterns p n).length = 4 := by
  unfold decimalPatterns
  split <;> rfl

theorem withDots_length (dots : Bool) (patterns : List Byte) :
    (withDots dots patterns).length = patterns.length := by
  cases dots with
  | false => rfl
  | true => exact List.length_modify ..

/-- A display write sends four patterns (20 R51, R57). -/
theorem patternsSent_length {p : Params} {i : Instr} {patterns : List Byte}
    (h : patternsSent p i = some patterns) : patterns.length = 4 := by
  cases i with
  | dispDec number dots => cases h; rw [withDots_length, decimalPatterns_length]
  | dispRaw c0 c1 c2 c3 => cases h; rfl
  | _ => cases h

/-- A display write loads the content program of its frame (43 R165, R168). -/
theorem exec_displayWrite_pending {i : Instr} {s t : State} {patterns : List Byte} (h : exec i s = .next t)
    (hi : patternsSent s.params i = some patterns) :
    t.pending = contentProgram s.params (contentFrame s.params patterns) := by
  cases i with
  | dispDec number dots => cases hi; cases h; rfl
  | dispRaw c0 c1 c2 c3 => cases hi; cases h; rfl
  | _ => cases hi

/-- A setter loads the display-control command of the configuration it leaves (43 R169, R171). -/
theorem exec_setter_pending {i : Instr} {s t : State} {b : BitVec 3} {on : Bool} (h : exec i s = .next t)
    (hi : configSet s.cfgBrightness s.cfgState i = some (b, on)) :
    t.pending = writeCommand (cmdDisplayControl s.params b on) := by
  cases i with
  | setState v => cases hi; cases h; rfl
  | setBrt level => cases hi; cases h; rfl
  | _ => cases hi

/-- A getter loads nothing (43 R170, R172). -/
theorem exec_getter_pending {i : Instr} {s t : State} {v : Byte} (h : exec i s = .next t)
    (hi : answerOf s i = some v) : t.pending = s.pending := by
  cases i with
  | getState => cases h; rfl
  | getBrt => cases h; rfl
  | _ => cases hi

/-! ### What an address-set command writes -/

/-- An address-set command with a legal address answers the state with its patterns written, when they all fall on
display addresses (20 R51, R56). -/
theorem exec_cmdAddressSet_next {addr : BitVec 6} {s : State} {dram : Memory} (ha : addr.toNat < Config.nDigits)
    (hw : s.dram.writeFrom addr.toNat s.patternsOnWire = some dram) :
    exec (.cmdAddressSet addr) s = .next { s with dram := dram } := by
  simp only [exec, execCmdAddressSet, if_pos ha, hw]

/-! ### The statements -/

/-- Settles O37: each request loads the program of its kind, and `sentOf_contentProgram` and `sentOf_writeCommand` read
that program back from the wire. -/
theorem transactionsSent : Obligations.TransactionsSent := by
  refine fun i s t h => ⟨fun patterns hi => ⟨?_, patternsSent_length hi⟩, fun b on hi => ?_,
    fun v hi => exec_getter_pending h hi⟩
  · rw [exec_displayWrite_pending h hi, sentOf_contentProgram]
    rfl
  · rw [exec_setter_pending h hi, sentOf_writeCommand]

/-- Settles O44: patterns that end within the display address space are all written, and `Memory.read_writeFrom` says
what each address reads afterwards. -/
theorem addressSetWrites : Obligations.AddressSetWrites := by
  intro addr s haddr hend
  obtain ⟨dram, hw⟩ := Option.isSome_iff_exists.mp (Memory.writeFrom_isSome s.patternsOnWire s.dram addr.toNat hend)
  have hread := Memory.read_writeFrom hw s.dramDraw
  refine ⟨{ s with dram := dram }, exec_cmdAddressSet_next (Nat.lt_succ_of_le haddr) hw, fun k hk => ?_,
    fun a ha => ?_, rfl⟩
  · have hin : addr.toNat ≤ addr.toNat + k ∧ addr.toNat + k < addr.toNat + s.patternsOnWire.length :=
      ⟨Nat.le_add_right .., Nat.add_lt_add_left hk _⟩
    exact (hread _).trans (by rw [if_pos hin, Nat.add_sub_cancel_left]; rfl)
  · exact (hread a).trans (if_neg (by simp only [State.patternsOnWire]; omega))

end Sys2Proof.Machine
end

section
/-! PROOF. The encoded forms (30): a word or a byte is its fields and its fields are the word or the byte, so decoding
and encoding invert each other and the ignored operand bits are never read. -/

namespace Sys2Proof.Machine

/-! ### Fields of words and bytes -/

@[simp] theorem opField_requestWord (op : BitVec 4) (arg : Arg) : opField (requestWord op arg) = op :=
  BitVec.extractLsb'_append_eq_left

@[simp] theorem argField_requestWord (op : BitVec 4) (arg : Arg) : argField (requestWord op arg) = arg :=
  BitVec.extractLsb'_append_eq_right

@[simp] theorem requestWord_fields (w : ReqWord) : requestWord (opField w) (argField w) = w :=
  BitVec.extractLsb'_append_extractLsb' (w := 4) (len := 32)

@[simp] theorem selField_commandByte (sel : BitVec 2) (payload : BitVec 6) :
    selField (commandByte sel payload) = sel :=
  BitVec.extractLsb'_append_eq_left

@[simp] theorem payloadField_commandByte (sel : BitVec 2) (payload : BitVec 6) :
    payloadField (commandByte sel payload) = payload :=
  BitVec.extractLsb'_append_eq_right

@[simp] theorem commandByte_fields (b : Byte) : commandByte (selField b) (payloadField b) = b :=
  BitVec.extractLsb'_append_extractLsb' (w := 2) (len := 6)

/-- A one-bit field at the low end of a word. -/
theorem getElem_append_ofBool {v : Nat} (hi : BitVec v) (b : Bool) : (hi ++ BitVec.ofBool b)[0] = b := by
  simp [BitVec.getElem_append]

/-- A one-bit field between two others. -/
theorem getElem_append_ofBool_append {v w : Nat} (hi : BitVec v) (b : Bool) (lo : BitVec w) :
    (hi ++ BitVec.ofBool b ++ lo)[w] = b := by
  simp [BitVec.getElem_append]

/-- A payload is the three fields of a display-control command (30 R82). -/
theorem payloadField_eq_append (b : Byte) :
    payloadField b = b.extractLsb' 4 2 ++ BitVec.ofBool (b.getLsbD 3) ++ b.extractLsb' 0 3 := by
  have hflag : BitVec.ofBool (b.getLsbD 3) = b.extractLsb' 3 1 := by
    apply BitVec.eq_of_getLsbD_eq
    intro i hi
    obtain rfl : i = 0 := by omega
    simp
  have hhigh : b.extractLsb' 4 2 ++ b.extractLsb' 3 1 = b.extractLsb' 3 3 :=
    BitVec.extractLsb'_append_extractLsb'_eq_extractLsb' rfl
  have hall : b.extractLsb' 3 3 ++ b.extractLsb' 0 3 = payloadField b :=
    BitVec.extractLsb'_append_extractLsb'_eq_extractLsb' rfl
  rw [hflag, hhigh, hall]

/-- The fields of a display-control command are those of its payload (30 R82). -/
theorem displayControl_fields (sel : BitVec 2) (on : Bool) (brightness : BitVec 3) :
    (commandByte sel (0#2 ++ BitVec.ofBool on ++ brightness)).extractLsb' 4 2 = 0#2 ∧
    (commandByte sel (0#2 ++ BitVec.ofBool on ++ brightness))[3] = on ∧
    (commandByte sel (0#2 ++ BitVec.ofBool on ++ brightness)).extractLsb' 0 3 = brightness := by
  have hpayload : ∀ {start len : Nat}, start + len ≤ 6 →
      (commandByte sel (0#2 ++ BitVec.ofBool on ++ brightness)).extractLsb' start len
        = (0#2 ++ BitVec.ofBool on ++ brightness).extractLsb' start len :=
    fun h => BitVec.extractLsb'_append_eq_of_add_le h
  refine ⟨?_, ?_, ?_⟩
  · rw [hpayload (by decide), BitVec.extractLsb'_append_eq_of_le (by decide)]
    exact BitVec.extractLsb'_append_eq_left
  · exact (BitVec.getElem_append ..).trans (getElem_append_ofBool_append 0#2 on brightness)
  · rw [hpayload (by decide), BitVec.extractLsb'_append_eq_right]

/-! ### Decoding what was encoded -/

/-- The operand field of `DISPRAW` holds the pattern of position `i` as byte `i` (30 R75). -/
theorem argByte_append (c0 c1 c2 c3 : Byte) :
    argByte (c3 ++ c2 ++ c1 ++ c0) 0 = c0 ∧ argByte (c3 ++ c2 ++ c1 ++ c0) 1 = c1 ∧
    argByte (c3 ++ c2 ++ c1 ++ c0) 2 = c2 ∧ argByte (c3 ++ c2 ++ c1 ++ c0) 3 = c3 := by
  refine ⟨BitVec.extractLsb'_append_eq_right, ?_, ?_, ?_⟩
  · exact (BitVec.extractLsb'_append_eq_of_le (by decide)).trans BitVec.extractLsb'_append_eq_right
  · exact (BitVec.extractLsb'_append_eq_of_le (by decide)).trans
      ((BitVec.extractLsb'_append_eq_of_le (by decide)).trans BitVec.extractLsb'_append_eq_right)
  · exact (BitVec.extractLsb'_append_eq_of_le (by decide)).trans
      ((BitVec.extractLsb'_append_eq_of_le (by decide)).trans BitVec.extractLsb'_append_eq_left)

/-- A request word decodes to the request it encodes (30 R72 to R79). -/
theorem decodeRequest_of_encode {p : Params} {i : Instr} {w : ReqWord} (h : encode p i = .request w) :
    decodeRequest w = .instr i := by
  cases i with
  | dispDec number dots =>
    cases h
    have hnumber : (0#15 ++ BitVec.ofBool dots ++ number : Arg).extractLsb' 0 16 = number :=
      BitVec.extractLsb'_append_eq_right
    have hdots : (0#15 ++ BitVec.ofBool dots ++ number : Arg)[16] = dots :=
      getElem_append_ofBool_append 0#15 dots number
    simp [decodeRequest, hnumber, hdots]
  | dispRaw c0 c1 c2 c3 =>
    cases h
    obtain ⟨h0, h1, h2, h3⟩ := argByte_append c0 c1 c2 c3
    simp [decodeRequest, h0, h1, h2, h3]
  | setState on =>
    cases h
    have hon : (0#31 ++ BitVec.ofBool on : Arg)[0] = on := getElem_append_ofBool 0#31 on
    simp [decodeRequest, hon]
  | getState => cases h; rfl
  | setBrt level =>
    cases h
    have hlevel : argByte (0#24 ++ level) 0 = level := BitVec.extractLsb'_append_eq_right
    simp [decodeRequest, hlevel]
  | getBrt => cases h; rfl
  | _ => cases h

/-- A command byte decodes to the command it encodes, when the class selectors are distinct (30 R80 to R83). -/
theorem decodeCommand_of_encode {p : Params} {i : Instr} {b : Byte} (hp : p.SelectorsDistinct)
    (h : encode p i = .command b) : decodeCommand p b = .instr i := by
  obtain ⟨hdata_disp, hdata_addr, hdisp_addr⟩ := hp
  cases i with
  | cmdDataWrite => cases h; simp [decodeCommand]
  | cmdDisplayControl on brightness =>
    cases h
    obtain ⟨hzeros, hon, hbrightness⟩ := displayControl_fields p.selDisp on brightness
    simp [decodeCommand, hdata_disp.symm, hzeros, hon, hbrightness]
  | cmdAddressSet addr => cases h; simp [decodeCommand, hdata_addr.symm, hdisp_addr.symm]
  | _ => cases h

/-- Settles O1: an encoding is a request word or a command byte, and each decodes to its instruction. -/
theorem decodeEncode : Obligations.DecodeEncode := by
  intro p i hp
  cases h : encode p i with
  | request w => exact decodeRequest_of_encode h
  | command b => exact decodeCommand_of_encode hp h

/-! ### Encoding what was decoded -/

/-- Settles O2: each class fixes the selector and the bits of the payload, and a byte is its selector and payload. -/
theorem commandBytesExact : Obligations.CommandBytesExact := by
  intro p b i h
  unfold decodeCommand at h
  split_ifs at h with hdata hpayload hdisp hzero haddr
  · cases h
    rw [encode, ← hdata, ← hpayload, commandByte_fields]
  · cases h
    rw [encode, ← hdisp, ← hzero, ← payloadField_eq_append, commandByte_fields]
  · cases h
    rw [encode, ← haddr, commandByte_fields]

/-! ### Ignored bits -/

/-- Masking keeps a field whose mask bits are all ones. -/
theorem extractLsb'_and_of_allOnes {n : Nat} {mask : BitVec n} {start len : Nat}
    (h : mask.extractLsb' start len = BitVec.allOnes len) (x : BitVec n) :
    (x &&& mask).extractLsb' start len = x.extractLsb' start len := by
  rw [BitVec.extractLsb'_and, h, BitVec.and_allOnes]

/-- Decoding reads no `ARG` bit outside the operand mask of the `OP` (30 R79). -/
theorem decodeRequest_operandMask (op : BitVec 4) (arg : Arg) :
    decodeRequest (requestWord op (arg &&& operandMask op)) = decodeRequest (requestWord op arg) := by
  simp only [decodeRequest, opField_requestWord, argField_requestWord]
  split <;> simp (disch := decide) [operandMask, *, argByte, extractLsb'_and_of_allOnes]

/-- Settles O3: the two words have the same `OP` and masked `ARG`, and decoding reads nothing else. -/
theorem ignoredBits : Obligations.IgnoredBits := by
  intro w w' s hop harg
  have hdecode : decodeRequest w = decodeRequest w' := by
    rw [← requestWord_fields w, ← requestWord_fields w', ← decodeRequest_operandMask, harg, hop,
      decodeRequest_operandMask]
  simp only [accept, hdecode]

/-! ### The assembler -/

theorem requestWordOf_word {i : Instr} {w : ReqWord} (h : requestWordOf i = .word w) :
    encode Config.params i = .request w := by
  unfold requestWordOf at h
  split at h
  case h_1 hword => cases h; exact hword
  case h_2 => cases h

/-- The word of a line is the encoding of a request (30 R88). -/
theorem assembleLine_word {line : List Char} {w : ReqWord} (h : assembleLine line = .word w) :
    ∃ i, encode Config.params i = .request w := by
  simp only [assembleLine] at h
  split at h
  case isTrue => cases h
  case isFalse =>
    split at h
    case h_1 i _ => exact ⟨i, requestWordOf_word h⟩
    case h_2 => cases h

/-- No parameter enters a request word (30 R72 to R79). -/
theorem encode_request_params {p : Params} {i : Instr} {w : ReqWord} (h : encode p i = .request w) (q : Params) :
    encode q i = .request w := by
  cases i with
  | cmdDataWrite | cmdDisplayControl | cmdAddressSet => cases h
  | _ => exact h

/-- Every request is well formed: only the address of a wire command can be illegal (42 R143). -/
theorem wellFormed_of_encode_request {p : Params} {i : Instr} {w : ReqWord} (h : encode p i = .request w) :
    i.wellFormed = true := by
  cases i with
  | cmdAddressSet => cases h
  | _ => rfl

/-- Settles O6: an assembled word encodes some request, so it decodes to that request, and no parameter enters it. -/
theorem assembledWords : Obligations.AssembledWords := by
  intro line w h
  obtain ⟨i, hi⟩ := assembleLine_word h
  exact ⟨i, wellFormed_of_encode_request hi, decodeRequest_of_encode hi, encode_request_params hi⟩

/-- A worked encoding is two evaluations, of the encoder and of the assembler: the decoder's answer follows. -/
theorem workedEncoding {p : Params} {i : Instr} {w : ReqWord} {line : List Char}
    (hencode : encode p i = .request w) (hline : assembleLine line = .word w) :
    encode p i = .request w ∧ decodeRequest w = .instr i ∧ assembleLine line = .word w :=
  ⟨hencode, decodeRequest_of_encode hencode, hline⟩

/-- Settles O5: encoder and assembler are evaluated on each row of 30 R89, and decoding inverts the encoder. -/
theorem workedEncodings : Obligations.WorkedEncodings := fun _ =>
  ⟨workedEncoding rfl (by decide), workedEncoding rfl (by decide), workedEncoding rfl (by decide),
    workedEncoding rfl (by decide), workedEncoding rfl (by decide), workedEncoding rfl (by decide)⟩

/-! ### A request presented while busy -/

/-- A step of a busy block is settled by what the step uses up, `RST` and the sample of the data line (41 R118). -/
theorem step_eq_of_busy {s s' : State} (hbusy : s.busy = true) (htick : s'.tick = s.tick)
    (hrst : s'.pins.rst = s.pins.rst) (hdio : s'.dioI = s.dioI) : step s' = step s := by
  have hparams : s'.params = s.params := congrArg (·.params) htick
  have hpending : s'.pending = s.pending := congrArg (·.pending) htick
  obtain ⟨hp, hs⟩ | ⟨hp, hr, hs⟩ | ⟨hp, hr, a, rest, hq, hs⟩ | ⟨-, -, hq, -⟩ | ⟨-, -, hq, -⟩ := step_cases s
  · rw [hs, step_badParameters (hparams ▸ hp)]
  · rw [hs, step_rst (hparams ▸ hp) (hrst.trans hr), htick]
  · rw [hs, step_action (hparams ▸ hp) (hrst.trans hr) (hpending.trans hq), htick, hdio]
  all_goals simp [State.busy, hq] at hbusy

/-- Settles O11: while busy, the step looks at `RST` and the sample of the data line alone among its input pins. -/
theorem requestIgnoredWhileBusy : Obligations.RequestIgnoredWhileBusy := by
  intro s now later valid w hbusy henv
  apply step_eq_of_busy hbusy
  · simp [State.tick, henv]
  · simp [State.pins, henv]
  · simp [State.dioI, State.pins, henv]

end Sys2Proof.Machine
end

section
/-! PROOF. The segment encoder (40): the table is one to one on the decimal digits, so `UNSEG` inverts it, and bit 7, the
dots bit, is never read. -/

namespace Sys2Proof.Machine

/-! ### The pattern bytes (40 R102, R105, R106) -/

theorem length_digitPatterns (p : Params) : p.digitPatterns.length = 10 := by
  simp [Params.digitPatterns]

/-- The pattern of a decimal digit is the entry of `SEG_TABLE[0..9]` at that digit. -/
theorem getElem_digitPatterns (p : Params) {d : Nat} (hd : d < 10) :
    p.digitPatterns[d]'(by rw [length_digitPatterns]; exact hd) = digitPattern p d := by
  have hmod : d % 16 = d := Nat.mod_eq_of_lt (by omega)
  simp [Params.digitPatterns, digitPattern, segLookup, Vector.get, hmod]

theorem digitPattern_mem_digitPatterns (p : Params) {d : Nat} (hd : d < 10) :
    digitPattern p d ∈ p.digitPatterns :=
  getElem_digitPatterns p hd ▸ List.getElem_mem _

/-- Two decimal digits with one pattern are the same digit (00 R7, constraint 2). -/
theorem digitPattern_injOn {p : Params} (hp : p.GlyphsDistinct) {d e : Nat} (hd : d < 10) (he : e < 10)
    (h : digitPattern p d = digitPattern p e) : d = e := by
  rw [← getElem_digitPatterns p hd, ← getElem_digitPatterns p he] at h
  exact (List.nodup_cons.mp hp).2.getElem_inj_iff.mp h

/-- The pattern of a decimal digit is not the minus pattern (00 R7, constraint 2). -/
theorem digitPattern_ne_minusPattern {p : Params} (hp : p.GlyphsDistinct) {d : Nat} (hd : d < 10) :
    digitPattern p d ≠ p.minusPattern :=
  fun h => (List.nodup_cons.mp hp).1 (h ▸ digitPattern_mem_digitPatterns p hd)

/-- Masking off bit 7 keeps a byte whose bit 7 is clear. -/
theorem and_7F_of_bit7_clear {b : Byte} (h : b.getLsbD 7 = false) : b &&& 0x7F = b := by
  have hmsb : b.msb = false := (BitVec.msb_eq_getLsbD_last b).trans h
  have hlt : b.toNat < 2 ^ 7 := by
    have := BitVec.msb_eq_false_iff_two_mul_lt.mp hmsb
    omega
  exact BitVec.eq_of_toNat_eq (Nat.and_two_pow_sub_one_of_lt_two_pow hlt)

theorem digitPattern_and_7F {p : Params} (hp : p.Bit7Clear) {d : Nat} (hd : d < 10) :
    digitPattern p d &&& 0x7F = digitPattern p d :=
  and_7F_of_bit7_clear
    (hp _ (List.mem_cons_of_mem _ (List.mem_of_mem_take (digitPattern_mem_digitPatterns p hd))))

theorem minusPattern_and_7F {p : Params} (hp : p.Bit7Clear) : p.minusPattern &&& 0x7F = p.minusPattern :=
  and_7F_of_bit7_clear (hp _ List.mem_cons_self)

/-! ### `UNSEG` (40 R107) -/

/-- `UNSEG` inverts the table on the decimal digits: the search finds this digit and no smaller one. -/
theorem unseg_digitPattern {p : Params} (hp : p.WF) {d : Nat} (hd : d < 10) :
    unseg p (digitPattern p d) = some (.digit d) := by
  obtain ⟨-, hglyphs, hbit7⟩ := hp
  have hfind : (List.range 10).find? (fun e => digitPattern p e == digitPattern p d) = some d := by
    rw [List.find?_range_eq_some]
    refine ⟨beq_self_eq_true _, List.mem_range.mpr hd, fun e he => ?_⟩
    have hne : digitPattern p e ≠ digitPattern p d :=
      fun h => he.ne (digitPattern_injOn hglyphs (he.trans hd) hd h)
    simp [hne]
  rw [unseg, digitPattern_and_7F hbit7 hd, hfind]

/-- `UNSEG` reads the minus pattern as the minus sign: no digit has that pattern. -/
theorem unseg_minusPattern {p : Params} (hp : p.WF) : unseg p p.minusPattern = some .minus := by
  obtain ⟨-, hglyphs, hbit7⟩ := hp
  have hfind : (List.range 10).find? (fun e => digitPattern p e == p.minusPattern) = none := by
    rw [List.find?_eq_none]
    intro e he
    simpa using digitPattern_ne_minusPattern hglyphs (List.mem_range.mp he)
  rw [unseg, minusPattern_and_7F hbit7, hfind, if_pos rfl]

/-- `UNSEG` does not read the dots bit (40 R106, R107). -/
theorem unseg_or_dotsMask (p : Params) (b : Byte) : unseg p (b ||| Config.dotsMask) = unseg p b := by
  have hmask : (b ||| Config.dotsMask) &&& 0x7F = b &&& 0x7F := by
    rw [BitVec.and_comm, BitVec.and_or_distrib_left]
    simp [Config.dotsMask, BitVec.and_comm]
  simp only [unseg, hmask]

/-- A map that does not see a modification gives the same list after it. -/
theorem map_modify_of_absorbs {α β : Type} {f : α → α} {g : α → β} (h : ∀ a, g (f a) = g a) (i : Nat) (as : List α) :
    (as.modify i f).map g = as.map g := by
  refine List.ext_getElem? fun k => ?_
  rw [List.getElem?_map, List.getElem?_map, List.getElem?_modify]
  by_cases hk : i = k <;> simp [hk, Function.comp_def, h]

/-- With or without dots, the patterns decode alike. -/
theorem map_unseg_withDots (p : Params) (dots : Bool) (patterns : List Byte) :
    (withDots dots patterns).map (unseg p) = patterns.map (unseg p) := by
  cases dots with
  | false => rfl
  | true => exact map_modify_of_absorbs (unseg_or_dotsMask p) Config.dotsPos patterns

/-! ### The digits of a number (43 R160 to R163) -/

theorem clamp_of_mem_range {n : Int} (hmin : -999 ≤ n) (hmax : n ≤ 9999) : clamp n = n := by
  rw [clamp, Config.clampMin, Config.clampMax, if_neg (by omega), if_neg (by omega)]

theorem digits4_lt_ten {n d : Nat} (hn : n ≤ 9999) (hd : d ∈ digits4 n) : d < 10 := by
  simp only [digits4, List.mem_cons, List.not_mem_nil, or_false] at hd
  omega

theorem digits3_lt_ten {m d : Nat} (hm : m ≤ 999) (hd : d ∈ digits3 m) : d < 10 := by
  simp only [digits3, List.mem_cons, List.not_mem_nil, or_false] at hd
  omega

/-- The patterns of decimal digits decode to those digits. -/
theorem map_unseg_map_digitPattern {p : Params} (hp : p.WF) {ds : List Nat} (hds : ∀ d ∈ ds, d < 10) :
    (ds.map (digitPattern p)).map (unseg p) = (ds.map Glyph.digit).map some := by
  rw [List.map_map, List.map_map]
  exact List.map_congr_left fun d hd => unseg_digitPattern hp (hds d hd)

/-- The patterns of a number in range decode to its digits, after the minus sign for a negative one. -/
theorem map_unseg_decimalPatterns {p : Params} (hp : p.WF) {n : Int} (hmin : -999 ≤ n) (hmax : n ≤ 9999) :
    (decimalPatterns p n).map (unseg p) = (glyphsOf n).map some := by
  by_cases hn : n < 0
  · have hdigits := map_unseg_map_digitPattern hp fun _ => digits3_lt_ten (m := (-n).toNat) (by omega)
    rw [decimalPatterns, if_pos hn, glyphsOf, if_pos hn, List.map_cons, List.map_cons, unseg_minusPattern hp, hdigits]
  · rw [decimalPatterns, if_neg hn, glyphsOf, if_neg hn]
    exact map_unseg_map_digitPattern hp fun _ => digits4_lt_ten (by omega)

/-- Settles O42: a number in range is not clamped, `UNSEG` does not read the dots bit, and it inverts the table on
every digit and on the minus pattern. -/
theorem frameDecodesToNumber : Obligations.FrameDecodesToNumber := by
  intro p n dots hp hmin hmax
  rw [decimalFrame, contentFrame, List.tail_cons, map_unseg_withDots, clamp_of_mem_range hmin hmax,
    map_unseg_decimalPatterns hp hmin hmax]

end Sys2Proof.Machine
end

section
/-! PROOF. The step and its agents (41, sections 3 and 4): what a step does with a request, with nothing to do, and at a
wait for an acknowledge. -/

namespace Sys2Proof.Machine

/-- A word that decodes to a request is accepted as that request (43 R164). -/
theorem accept_of_decodeRequest {w : ReqWord} {i : Instr} (h : decodeRequest w = .instr i) (s : State) :
    accept w s = exec i s := by
  simp only [accept, h]

/-- Only `WAIT_ACK` reads the sample of the data line (41 R124). -/
theorem performAction_sample {a : Action} (h : a ≠ .waitAck) (sample sample' : Bool) (s : State) :
    performAction a sample s = performAction a sample' s := by
  cases a with
  | waitAck => exact absurd rfl h
  | _ => rfl

/-- The step is settled by what it uses up, `RST` and the request port, unless `WAIT_ACK` is at the head (41 R118,
R124). -/
theorem step_eq_of_no_waitAck {s s' : State} (hhead : s.pending.head? ≠ some .waitAck) (htick : s'.tick = s.tick)
    (hrst : s'.pins.rst = s.pins.rst) (hvalid : s'.pins.reqValid = s.pins.reqValid)
    (hword : s'.pins.reqWord = s.pins.reqWord) : step s' = step s := by
  have hparams : s'.params = s.params := congrArg (·.params) htick
  have hpending : s'.pending = s.pending := congrArg (·.pending) htick
  obtain ⟨hp, hs⟩ | ⟨hp, hr, hs⟩ | ⟨hp, hr, a, rest, hq, hs⟩ | ⟨hp, hr, hq, hv, hs⟩ | ⟨hp, hr, hq, hv, hs⟩ :=
    step_cases s
  · rw [hs, step_badParameters (hparams ▸ hp)]
  · rw [hs, step_rst (hparams ▸ hp) (hrst.trans hr), htick]
  · have ha : a ≠ .waitAck := fun h => hhead (by rw [hq, h, List.head?_cons])
    rw [hs, step_action (hparams ▸ hp) (hrst.trans hr) (hpending.trans hq), htick, performAction_sample ha]
  · rw [hs, step_accept (hparams ▸ hp) (hrst.trans hr) (hpending.trans hq) (hvalid.trans hv), htick, hword]
  · rw [hs, step_idle (hparams ▸ hp) (hrst.trans hr) (hpending.trans hq) (hvalid.trans hv), htick]

/-- Settles O7: an idle block accepts the word presented, and a word that decodes is accepted as its request. -/
theorem stepRunsRequest : Obligations.StepRunsRequest := fun _ _ hp hr hq hv hi =>
  (step_accept hp hr hq hv).trans (accept_of_decodeRequest hi _)

/-- Settles O10: the idle step is `State.tick` alone. -/
theorem idleStep : Obligations.IdleStep := fun _ hp hr hq hv => step_idle hp hr hq hv

/-- Settles O12: the pull enters the step only through the sample, which no other head of `PENDING` reads. -/
theorem dataReadOnlyInWait : Obligations.DataReadOnlyInWait := by
  intro s now later low hhead henv
  apply step_eq_of_no_waitAck hhead
  · simp [State.tick, henv]
  all_goals simp [State.pins, henv]

/-- Settles O19: a sample of 1 leaves the ticked state, and a sample of 0 emits ACK and drops the head of `PENDING`. -/
theorem waitAckStep : Obligations.WaitAckStep := by
  intro s rest hp hr hq
  rw [step_action hp hr hq, performAction, performWaitAck]
  split
  · rfl
  · simp only [State.advance, State.emit, State.tick, hq, List.tail_cons]

end Sys2Proof.Machine
end

section
/-! PROOF. The fixed action lists (41 R111 to R117, R119, R120): what a transaction adds up to, and where it moves the
data line. -/

namespace Sys2Proof.Machine

/-! ### What a transaction adds up to -/

/-- A measure of action lists that adds up over their parts: a length, a count, a total of waits. -/
def AddsUp (μ : List Action → Nat) : Prop := ∀ as bs, μ (as ++ bs) = μ as + μ bs

theorem AddsUp.nil {μ : List Action → Nat} (h : AddsUp μ) : μ [] = 0 := by
  have hnil := h [] []
  rw [List.append_nil] at hnil
  omega

/-- Blocks that each measure `n` measure `n` times their number. -/
theorem AddsUp.flatMap {α : Type} {μ : List Action → Nat} (h : AddsUp μ) {f : α → List Action} {n : Nat}
    (hf : ∀ x, μ (f x) = n) (xs : List α) : μ (xs.flatMap f) = xs.length * n := by
  induction xs with
  | nil => rw [List.flatMap_nil, h.nil, List.length_nil, Nat.zero_mul]
  | cons x xs ih => rw [List.flatMap_cons, h, hf, ih, List.length_cons, Nat.succ_mul, Nat.add_comm]

/-- A byte is eight bit cells and one acknowledge (41 R116). -/
theorem AddsUp.byteSeq {μ : List Action → Nat} (h : AddsUp μ) {n : Nat} (hbit : ∀ v, μ (bitCell v) = n)
    (b : Byte) : μ (byteSeq b) = 8 * n + μ ackSeq := by
  rw [Machine.byteSeq, h, h.flatMap hbit]
  rfl

/-- A transaction is one start, its bytes and one stop (41 R117). -/
theorem AddsUp.txn {μ : List Action → Nat} (h : AddsUp μ) {n : Nat} (hbit : ∀ v, μ (bitCell v) = n)
    (bytes : List Byte) :
    μ (txn bytes) = μ startSeq + bytes.length * (8 * n + μ ackSeq) + μ stopSeq := by
  rw [Machine.txn, h, h, h.flatMap (h.byteSeq hbit)]

theorem addsUp_length : AddsUp List.length := fun _ _ => List.length_append

theorem addsUp_count (a : Action) : AddsUp (List.count a) := fun _ _ => List.count_append

theorem addsUp_waitMicros (p : Params) : AddsUp (waitMicros p) := fun as bs => by
  simp only [waitMicros, List.map_append, List.sum_append]

/-- Settles O23: each count adds up over the start, the bit cells, the acknowledges and the stop; a bit cell has one
rise and one fall of the clock and the acknowledge one rise, two falls and the one check. -/
theorem transactionCounts : Obligations.TransactionCounts := by
  have hack := (addsUp_count .waitAck).txn (n := 0) (by decide)
  have hrise := (addsUp_count (.clk true)).txn (n := 1) (by decide)
  have hfall := (addsUp_count (.clk false)).txn (n := 1) (by decide)
  refine ⟨fun bytes => ⟨?_, ?_, ?_⟩, fun b => (addsUp_count .waitAck).byteSeq (n := 0) (by decide) b⟩
  · calc (txn bytes).count .waitAck = 0 + bytes.length * 1 + 0 := hack bytes
      _ = bytes.length := by omega
  · calc (txn bytes).count (.clk true) = 1 + bytes.length * 9 + 1 := hrise bytes
      _ = 9 * bytes.length + 2 := by omega
  · calc (txn bytes).count (.clk false) = 0 + bytes.length * 10 + 1 := hfall bytes
      _ = 10 * bytes.length + 1 := by omega

/-- The waits of the four parts of a transaction (41 R111 to R114). -/
theorem waitMicros_parts (p : Params) :
    waitMicros p startSeq = 2 * p.tStart ∧ (∀ v, waitMicros p (bitCell v) = 2 * p.tBit) ∧
    waitMicros p ackSeq = 2 * p.tAck ∧ waitMicros p stopSeq = 3 * p.tStop := by
  simp only [waitMicros, startSeq, bitCell, ackSeq, stopSeq, List.map_cons, List.map_nil, List.sum_cons,
    List.sum_nil, Action.micros, Delay.micros]
  exact ⟨by omega, fun _ => by omega, by omega, by omega⟩

/-- Settles O24: length and waits add up over the same parts. -/
theorem transactionLength : Obligations.TransactionLength := by
  intro p bytes
  constructor
  · calc (txn bytes).length = 5 + bytes.length * 48 + 7 := addsUp_length.txn (n := 5) (fun _ => rfl) bytes
      _ = 5 + 48 * bytes.length + 7 := by rw [Nat.mul_comm]
  · obtain ⟨hstart, hbit, hack, hstop⟩ := waitMicros_parts p
    rw [(addsUp_waitMicros p).txn hbit, hstart, hack, hstop, ← Nat.mul_assoc]

/-! ### Where a transaction moves the data line -/

/-- The edges two lists of actions make, one after the other. -/
theorem dataEdgesWhileHigh_append (as bs : List Action) (l : Link) :
    dataEdgesWhileHigh l.clk l.dio (as ++ bs)
      = dataEdgesWhileHigh l.clk l.dio as ++ dataEdgesWhileHigh (l.replay as).clk (l.replay as).dio bs := by
  induction as generalizing l with
  | nil => rfl
  | cons a as ih =>
    cases a with
    | dio v =>
      simp only [List.cons_append, dataEdgesWhileHigh, Link.replay_cons]
      split
      · exact congrArg (v :: ·) (ih (l.act (.dio v)))
      · exact ih (l.act (.dio v))
    | clk v => exact ih (l.act (.clk v))
    | _ => exact ih l

/-- Blocks of actions that each make no edge, from any levels, make none one after the other. -/
theorem dataEdgesWhileHigh_flatMap_eq_nil {α : Type} (xs : List α) (f : α → List Action)
    (h : ∀ x clk dio, dataEdgesWhileHigh clk dio (f x) = []) (l : Link) :
    dataEdgesWhileHigh l.clk l.dio (xs.flatMap f) = [] := by
  induction xs generalizing l with
  | nil => rfl
  | cons x xs ih => rw [List.flatMap_cons, dataEdgesWhileHigh_append, h, ih, List.append_nil]

/-- A bit cell and the acknowledge move the data line only while the clock is low, so a byte does (41 R113, R114). -/
theorem dataEdgesWhileHigh_byteSeq (b : Byte) (clk dio : Bool) : dataEdgesWhileHigh clk dio (byteSeq b) = [] := by
  have hbits := dataEdgesWhileHigh_flatMap_eq_nil (bitsOf b) bitCell (fun _ _ _ => rfl) ⟨clk, dio, Wire.idle⟩
  have hsplit := dataEdgesWhileHigh_append ((bitsOf b).flatMap bitCell) ackSeq ⟨clk, dio, Wire.idle⟩
  exact hsplit.trans (by rw [hbits]; rfl)

/-- Settles O22: the start makes the fall, the bytes make no edge, and the stop makes the rise from any levels. -/
theorem startStopOnly : Obligations.StartStopOnly := by
  intro bytes
  have hbytes := dataEdgesWhileHigh_flatMap_eq_nil bytes byteSeq dataEdgesWhileHigh_byteSeq
  have hstop : ∀ clk dio, dataEdgesWhileHigh clk dio stopSeq = [true] := fun _ _ => rfl
  refine ⟨?_, rfl, hbytes ⟨true, false, Wire.idle⟩, hstop⟩
  calc dataEdgesWhileHigh true true (txn bytes)
      = dataEdgesWhileHigh Link.idle.clk Link.idle.dio (startSeq ++ bytes.flatMap byteSeq ++ stopSeq) := rfl
    _ = dataEdgesWhileHigh Link.idle.clk Link.idle.dio startSeq ++ [] ++ [true] := by
      rw [dataEdgesWhileHigh_append, dataEdgesWhileHigh_append, hbytes, hstop]
    _ = [false, true] := rfl

end Sys2Proof.Machine
end

section
/-! PROOF. Performing an action in a legal state (41 R110): the stop condition closes a transaction of a legal program,
so its command is one of the table and runs (20 R56, R57). -/

namespace Sys2Proof.Machine

/-! ### The command bytes a program sends -/

/-- A command byte by shift and OR is its two fields (30 R80, 42 R140). -/
theorem shiftLeft_or_eq_commandByte (sel : BitVec 2) (payload : BitVec 6) :
    (sel.setWidth 8 <<< 6) ||| payload.setWidth 8 = commandByte sel payload := by
  rw [← BitVec.setWidth_append_eq_shiftLeft_setWidth_or, commandByte]
  exact BitVec.setWidth_eq _

theorem encode_cmdDataWrite (p : Params) : encode p .cmdDataWrite = .command (cmdDataWrite p) :=
  congrArg Encoded.command (shiftLeft_or_eq_commandByte ..).symm

theorem encode_cmdDisplayControl (p : Params) (b : BitVec 3) (on : Bool) :
    encode p (.cmdDisplayControl on b) = .command (cmdDisplayControl p b on) := by
  have hzeros : (0#2).setWidth 8 <<< (1 + 3) = 0#8 := rfl
  rw [encode, ← shiftLeft_or_eq_commandByte, BitVec.setWidth_append_append_eq_shiftLeft_setWidth_or, hzeros,
    BitVec.zero_or, cmdDisplayControl, Config.stateBit, BitVec.or_assoc, BitVec.or_comm (b.setWidth 8)]

theorem encode_cmdAddressSet (p : Params) (a : BitVec 6) :
    encode p (.cmdAddressSet a) = .command (cmdAddressSet p a) :=
  congrArg Encoded.command (shiftLeft_or_eq_commandByte ..).symm

/-! ### The transactions of a legal program -/

/-- The transactions a legal program sends: the data-write command alone, a display-control command alone, or a content
frame of four patterns at address 0 (20 R57). -/
def LegalTransaction (p : Params) (bytes : List Byte) : Prop :=
  bytes = [cmdDataWrite p] ∨
  (∃ b s, bytes = [cmdDisplayControl p b s]) ∨
  (∃ c0 c1 c2 c3, bytes = contentFrame p [c0, c1, c2, c3])

/-- Every transaction a legal program sends from the idle-high state is legal, whatever a reset has left on the wire
before it (20 R57). -/
theorem LegalProgram.sends_legal {p : Params} {program : List Action} (h : LegalProgram p program) (w : Wire) :
    ∀ bytes ∈ sentFrom (Link.high w) (program.map Action.event), LegalTransaction p bytes := by
  intro bytes hsent
  obtain rfl | ⟨b, on, rfl⟩ | ⟨c0, c1, c2, c3, rfl⟩ := h
  · simp [sentFrom] at hsent
  · rw [writeCommand, (txn_sends w _).1, List.mem_singleton] at hsent
    exact .inr (.inl ⟨b, on, hsent⟩)
  · obtain ⟨hcommand, hidle⟩ := txn_sends w [cmdDataWrite p]
    obtain ⟨hframe, -⟩ := txn_sends Wire.idle (contentFrame p [c0, c1, c2, c3])
    rw [contentProgram, writeCommand, sentFrom_map_append, hcommand, hidle, Link.idle, hframe,
      List.singleton_append, List.mem_pair] at hsent
    exact hsent.imp id fun hframe => .inr ⟨c0, c1, c2, c3, hframe⟩

/-- In a legal state, a stop condition at the head of `PENDING` closes a transaction of the program: what the whole
program sends includes what this action sends. -/
theorem State.OnProgram.stop_closes_legal {s : State} {v : Bool} {rest : List Action} (h : s.OnProgram)
    (hq : s.pending = .dio v :: rest) (hstops : s.wire.stops s.clkO s.dioO v = true) :
    LegalTransaction s.params s.wire.bytes := by
  obtain ⟨done, w, hlegal, hlink⟩ := h
  apply hlegal.sends_legal w
  have hsplit : sentFrom (Link.high w) ((done ++ s.pending).map Action.event)
      = sentFrom (Link.high w) (done.map Action.event) ++ sentFrom s.link (s.pending.map Action.event) := by
    rw [sentFrom_map_append, hlink]
  have hstop : s.link.wire.stops s.link.clk s.link.dio v = true := hstops
  rw [hsplit, hq, List.map_cons, Action.event, sentFrom, if_pos hstop]
  exact List.mem_append_right _ List.mem_cons_self

/-! ### Closing a transaction -/

theorem closeTransaction_of_command {s : State} {i : Instr} {c : Byte} {patterns : List Byte} (hp : s.params.WF)
    (hwire : s.wire.bytes = c :: patterns) (hc : encode s.params i = .command c) :
    closeTransaction s = endTransaction (exec i s) := by
  obtain ⟨hsel, -, -⟩ := hp
  simp only [closeTransaction, hwire, decodeCommand_of_encode hsel hc]

/-- A legal transaction closes with a next state: its first byte is a command of the table, and the four patterns of a
content frame fit the display memory (20 R51, R56). -/
theorem closeTransaction_answers {s : State} (hp : s.params.WF) (h : LegalTransaction s.params s.wire.bytes) :
    ∃ t, closeTransaction s = .next t := by
  obtain hb | ⟨b, on, hb⟩ | ⟨c0, c1, c2, c3, hb⟩ := h
  · exact ⟨_, closeTransaction_of_command hp hb (encode_cmdDataWrite _)⟩
  · exact ⟨_, closeTransaction_of_command hp hb (encode_cmdDisplayControl ..)⟩
  · have hpatterns : s.patternsOnWire = [c0, c1, c2, c3] := congrArg List.tail hb
    have hfits : Config.startAddr.toNat + s.patternsOnWire.length ≤ Config.nDigits := by
      rw [hpatterns]
      exact Nat.le_refl 4
    obtain ⟨dram, hw⟩ := Option.isSome_iff_exists.mp (Memory.writeFrom_isSome _ s.dram _ hfits)
    rw [closeTransaction_of_command hp hb (encode_cmdAddressSet ..), exec_cmdAddressSet_next (by decide) hw]
    exact ⟨_, rfl⟩

/-- A wire command writes the display memory and the peripheral's two settings alone (20 R56, 42 R140 to R143). -/
theorem exec_command_frame {p : Params} {c : Byte} {i : Instr} {s t : State}
    (hc : decodeCommand p c = .instr i) (h : exec i s = .next t) :
    ∃ dram dctrl dataMode, t = { s with dram := dram, dctrl := dctrl, dataMode := dataMode } := by
  unfold decodeCommand at hc
  split_ifs at hc <;> cases hc
  · cases h; exact ⟨_, _, _, rfl⟩
  · cases h; exact ⟨_, _, _, rfl⟩
  · obtain ⟨dram, -, -, rfl⟩ := execCmdAddressSet_next h
    exact ⟨_, _, _, rfl⟩

/-- Closing a transaction writes the wire, the display memory and the peripheral's two settings alone (20 R56). -/
theorem closeTransaction_frame {s t : State} (h : closeTransaction s = .next t) :
    ∃ dram dctrl dataMode,
      t = { s with wire := Wire.idle, dram := dram, dctrl := dctrl, dataMode := dataMode } := by
  obtain ⟨-, rfl⟩ | ⟨c, rest, i, u, -, hc, hu, rfl⟩ := closeTransaction_next h
  · exact ⟨_, _, _, rfl⟩
  · obtain ⟨dram, dctrl, dataMode, rfl⟩ := exec_command_frame hc hu
    exact ⟨_, _, _, rfl⟩

/-! ### Performing an action -/

theorem Wire.onDio_of_stops {w : Wire} {clk dio v : Bool} (h : w.stops clk dio v = true) :
    w.onDio clk dio v = w := by
  have hv : v = true := (Bool.and_eq_true_iff.mp h).2
  simp [Wire.onDio, hv]

/-- An action whose stop condition, if it makes one, closes a legal transaction answers a next state (41 R110). -/
theorem performAction_answers {a : Action} {s : State} (sample : Bool) (hp : s.params.WF)
    (hstop : ∀ v, a = .dio v → s.wire.stops s.clkO s.dioO v = true → LegalTransaction s.params s.wire.bytes) :
    ∃ t, performAction a sample s = .next t := by
  cases a with
  | clk v => exact ⟨_, rfl⟩
  | wait d => exact ⟨_, rfl⟩
  | waitAck => rw [performAction, performWaitAck]; split <;> exact ⟨_, rfl⟩
  | dio v =>
    rw [performAction, performDio]
    split
    case isFalse => exact ⟨_, rfl⟩
    case isTrue hs =>
      refine closeTransaction_answers hp ?_
      simpa [Wire.onDio_of_stops hs] using hstop v rfl hs

/-- What performing an action other than `WAIT_ACK` leaves in `PENDING`, the trace, the lines and the input list
(41 R110). -/
theorem performAction_drives {a : Action} {sample : Bool} {s t : State} (ha : a ≠ .waitAck)
    (h : performAction a sample s = .next t) :
    t.pending = s.pending.tail ∧ t.trace = s.trace ++ [a.event] ∧
    t.clkO = (s.link.act a).clk ∧ t.dioO = (s.link.act a).dio ∧ t.env = s.env := by
  obtain ⟨v, rfl, rfl⟩ | ⟨v, rfl, -, rfl⟩ | ⟨v, rfl, -, hclose⟩ | ⟨d, rfl, rfl⟩ | ⟨rfl, -⟩ | ⟨rfl, -⟩ :=
    performAction_next h
  · exact ⟨rfl, rfl, rfl, rfl, rfl⟩
  · exact ⟨rfl, rfl, rfl, rfl, rfl⟩
  · obtain ⟨dram, dctrl, dataMode, rfl⟩ := closeTransaction_frame hclose
    exact ⟨rfl, rfl, rfl, rfl, rfl⟩
  · exact ⟨rfl, rfl, rfl, rfl, rfl⟩
  · exact absurd rfl ha
  · exact absurd rfl ha

/-- Settles O18: the step performs the head action; the invariant says that a stop condition closes a legal transaction,
so the step answers, and then it has driven the line named and written no register. -/
theorem performActions : Obligations.PerformActions := by
  rintro s a rest ⟨hp, -, hprogram⟩ hr hq ha
  obtain ⟨t, ht⟩ := performAction_answers (a := a) (s := s.tick) s.dioI hp
    fun v hv hstops => hprogram.stop_closes_legal (hv ▸ hq) hstops
  obtain ⟨hpending, htrace, hclk, hdio, henv⟩ := performAction_drives ha ht
  obtain ⟨hregisters, hvalid⟩ := performAction_registers ht
  refine ⟨t, (step_action hp hr hq).trans ht, ?_, htrace, ?_, ?_, hregisters, hvalid, henv⟩
  · rw [hpending, State.tick_pending, hq, List.tail_cons]
  · rw [hclk]; cases a <;> rfl
  · rw [hdio]; cases a <;> rfl

end Sys2Proof.Machine
end

section
/-! PROOF. The values of the command bytes (42 R142). -/

namespace Sys2Proof.Machine

/-- Appended fields weigh by their place: the low field counts once, the high field in steps of the low one's range. -/
theorem toNat_append_eq_mul_add {v w : Nat} (hi : BitVec v) (lo : BitVec w) :
    (hi ++ lo).toNat = hi.toNat * 2 ^ w + lo.toNat := by
  rw [BitVec.toNat_append, ← Nat.shiftLeft_add_eq_or_of_lt lo.isLt, Nat.shiftLeft_eq]

/-- A display-control byte is its three fields (30 R82, 42 R141). -/
theorem cmdDisplayControl_eq_commandByte (p : Params) (b : BitVec 3) (on : Bool) :
    cmdDisplayControl p b on = commandByte p.selDisp (0#2 ++ BitVec.ofBool on ++ b) :=
  (Encoded.command.inj (encode_cmdDisplayControl p b on)).symm

/-- The selector, the state bit and the brightness weigh 64, 8 and 1 in a display-control byte (30 R82). -/
theorem cmdDisplayControl_toNat (p : Params) (b : BitVec 3) (on : Bool) :
    (cmdDisplayControl p b on).toNat = p.selDisp.toNat * 64 + on.toNat * 8 + b.toNat := by
  rw [cmdDisplayControl_eq_commandByte, commandByte, toNat_append_eq_mul_add, toNat_append_eq_mul_add,
    toNat_append_eq_mul_add, BitVec.toNat_ofBool, BitVec.toNat_ofNat]
  omega

/-- Settles O29: the default selector weighs 128, and the state bit adds 8 when on. -/
theorem displayControlTable : Obligations.DisplayControlTable := by
  intro p b hsel
  have hweight : p.selDisp.toNat * 64 = 0x80 := by rw [hsel]; rfl
  constructor
  · rw [cmdDisplayControl_toNat, hweight, Bool.toNat_false, Nat.zero_mul, Nat.add_zero]
  · rw [cmdDisplayControl_toNat, hweight, Bool.toNat_true, Nat.one_mul]

end Sys2Proof.Machine
end

section
/-! PROOF. The rendering of a number (43 R160 to R163): clamping, the digit splits, and the decimal frame byte by byte. -/

namespace Sys2Proof.Machine

/-! ### `CLAMP` (43 R160) -/

theorem clamp_of_lt_min {n : Int} (h : n < -999) : clamp n = -999 := if_pos h

theorem clamp_of_max_lt {n : Int} (h : 9999 < n) : clamp n = 9999 := by
  rw [clamp, Config.clampMin, Config.clampMax, if_neg (by omega), if_pos h]

/-- Settles O38: the three branches of `CLAMP`. -/
theorem clampBounds : Obligations.ClampBounds :=
  fun _ => ⟨clamp_of_lt_min, clamp_of_max_lt, fun ⟨hmin, hmax⟩ => clamp_of_mem_range hmin hmax⟩

theorem clamp_mem_range (n : Int) : -999 ≤ clamp n ∧ clamp n ≤ 9999 := by
  rcases lt_or_ge n (-999) with hlow | hmin
  · rw [clamp_of_lt_min hlow]; decide
  · rcases lt_or_ge 9999 n with hhigh | hmax
    · rw [clamp_of_max_lt hhigh]; decide
    · rw [clamp_of_mem_range hmin hmax]; exact ⟨hmin, hmax⟩

theorem clamp_clamp (n : Int) : clamp (clamp n) = clamp n := by
  obtain ⟨hmin, hmax⟩ := clamp_mem_range n
  exact clamp_of_mem_range hmin hmax

/-! ### The digit splits (43 R161, R162) -/

/-- Each digit of `DIGITS4` is the number shifted down by its place, modulo ten. -/
theorem digits4_eq (n : Nat) : digits4 n = [n / 1000, n / 100 % 10, n / 10 % 10, n % 10] := by
  have hhundreds : n % 1000 / 100 = n / 100 % 10 := by omega
  have htens : n % 1000 % 100 / 10 = n / 10 % 10 := by omega
  have hones : n % 1000 % 100 % 10 = n % 10 := by omega
  simp only [digits4, hhundreds, htens, hones]

/-- Each digit of `DIGITS3` is the magnitude shifted down by its place, modulo ten. -/
theorem digits3_eq (m : Nat) : digits3 m = [m / 100, m / 10 % 10, m % 10] := by
  have htens : m % 100 / 10 = m / 10 % 10 := by omega
  have hones : m % 100 % 10 = m % 10 := by omega
  simp only [digits3, htens, hones]

/-- A number of three digits has the leading zero and its `DIGITS3` as its `DIGITS4`. -/
theorem digits4_eq_zero_cons_digits3 {m : Nat} (hm : m ≤ 999) : digits4 m = 0 :: digits3 m := by
  have hthousands : m / 1000 = 0 := by omega
  have hhundreds : m / 100 % 10 = m / 100 := by omega
  rw [digits4_eq, digits3_eq, hthousands, hhundreds]

/-- Settles O39: the digits by place, and `DIGITS3` as the tail of `DIGITS4`. -/
theorem digitSplits : Obligations.DigitSplits := by
  refine ⟨fun n hn => ⟨_, _, _, _, digits4_eq n, ?_⟩,
    fun m hm => ⟨_, _, _, digits3_eq m, by omega, by omega, by omega, by omega, ?_⟩⟩
  · omega
  · rw [digits4_eq_zero_cons_digits3 hm, digits3_eq]

/-! ### The decimal frame (43 R163) -/

theorem decimalPatterns_of_nonneg (p : Params) {n : Int} (hn : 0 ≤ n) :
    decimalPatterns p n = [digitPattern p (n.toNat / 1000), digitPattern p (n.toNat / 100 % 10),
      digitPattern p (n.toNat / 10 % 10), digitPattern p (n.toNat % 10)] := by
  rw [decimalPatterns, if_neg (not_lt.mpr hn), digits4_eq]
  rfl

theorem decimalPatterns_of_neg (p : Params) {n : Int} (hn : n < 0) :
    decimalPatterns p n = [p.minusPattern, digitPattern p ((-n).toNat / 100),
      digitPattern p ((-n).toNat / 10 % 10), digitPattern p ((-n).toNat % 10)] := by
  rw [decimalPatterns, if_pos hn, digits3_eq]
  rfl

/-- The dots bit goes into position 1 and no other (40 R106). -/
theorem withDots_four (dots : Bool) (c0 c1 c2 c3 : Byte) :
    withDots dots [c0, c1, c2, c3] = [c0, c1 ||| (if dots then 0x80 else 0), c2, c3] := by
  cases dots with
  | false => simp [withDots]
  | true => rfl

/-- Settles O40: the patterns by the sign of the clamped number, with the dots bit put into the second of them. -/
theorem decimalFrameBytes : Obligations.DecimalFrameBytes := by
  intro p n dots
  constructor
  · intro hn
    rw [decimalFrame, decimalPatterns_of_nonneg p hn, withDots_four]
    rfl
  · intro hn
    rw [decimalFrame, decimalPatterns_of_neg p hn, withDots_four]
    rfl

/-- The decimal frame reads its number through `CLAMP` alone. -/
theorem decimalFrame_eq_of_clamp_eq (p : Params) (dots : Bool) {m n : Int} (h : clamp m = clamp n) :
    decimalFrame p m dots = decimalFrame p n dots := by
  rw [decimalFrame, decimalFrame, h]

/-- Settles O41: each pair of numbers has one clamped value. -/
theorem clampedFrames : Obligations.ClampedFrames := by
  refine fun p n dots => ⟨?_, fun h => ?_, fun h => ?_⟩
  · exact decimalFrame_eq_of_clamp_eq p dots (clamp_clamp n).symm
  · exact decimalFrame_eq_of_clamp_eq p dots (clamp_of_max_lt h)
  · exact decimalFrame_eq_of_clamp_eq p dots (clamp_of_lt_min h)

end Sys2Proof.Machine
end

section
/-! PROOF. The effects of the six requests (43 R165 to R172): which operation of the state each one is, and the values
the brightness operations and the getters work with. -/

namespace Sys2Proof.Machine

/-! ### The operation of each request -/

theorem exec_dispDec (number : BitVec 16) (dots : Bool) (s : State) :
    exec (.dispDec number dots) s = .next (s.sendContent (decimalFrame s.params number.toInt dots)) := rfl

theorem exec_dispRaw (c0 c1 c2 c3 : Byte) (s : State) :
    exec (.dispRaw c0 c1 c2 c3) s = .next (s.sendContent (contentFrame s.params [c0, c1, c2, c3])) := rfl

theorem exec_setState (on : Bool) (s : State) :
    exec (.setState on) s = .next (s.setCfgState on).sendDisplayControl := rfl

theorem exec_getState (s : State) :
    exec .getState s = .next (s.respond ((BitVec.ofBool s.cfgState).setWidth 8)) := rfl

theorem exec_setBrt (level : Byte) (s : State) :
    exec (.setBrt level) s = .next (s.setCfgBrightness (maskBrightness level)).sendDisplayControl := rfl

theorem exec_getBrt (s : State) : exec .getBrt s = .next (s.respond (s.cfgBrightness.setWidth 8)) := rfl

/-! ### The values they write -/

/-- The mask keeps the level modulo 8 (43 R171). -/
theorem maskBrightness_toNat (level : Byte) : (maskBrightness level).toNat = level.toNat % 8 := by
  have hmask : (level &&& 0x07).toNat = level.toNat % 8 := Nat.and_two_pow_sub_one_eq_mod level.toNat 3
  rw [maskBrightness, BitVec.toNat_setWidth, hmask, Nat.mod_mod]

/-- Extending the brightness to a byte keeps its value (43 R172). -/
theorem toNat_setWidth_brightness (b : BitVec 3) : (b.setWidth 8).toNat = b.toNat :=
  BitVec.toNat_setWidth_of_le (by decide)

/-- Extending the state bit to a byte gives 1 for on and 0 for off (43 R170). -/
theorem setWidth_ofBool (on : Bool) : (BitVec.ofBool on).setWidth 8 = if on then 0x01#8 else 0x00#8 := by
  cases on <;> rfl

/-! ### The statements -/

/-- Settles O30: the request loads the decimal frame's program, and a load writes `PENDING` alone. -/
theorem displayDecimal : Obligations.DisplayDecimal := exec_dispDec

/-- Settles O31: the request loads the program of the four patterns behind the start address, which is 0. -/
theorem displayContent : Obligations.DisplayContent := exec_dispRaw

/-- Settles O32: the display-control command is built after the state is written, so it carries the new one. -/
theorem setState : Obligations.SetState := exec_setState

/-- Settles O33: the request answers the state bit, which a reset has put at its parameter. -/
theorem getState : Obligations.GetState :=
  ⟨exec_getState, fun p => ⟨_, exec_getState _, setWidth_ofBool p.resetState⟩⟩

/-- Settles O34: the masked level is the level modulo 8. -/
theorem setBrightness : Obligations.SetBrightness :=
  fun level s => ⟨maskBrightness level, maskBrightness_toNat level, exec_setBrt level s⟩

/-- Settles O35: the request answers the three bits of the brightness, which a reset has put at its parameter. -/
theorem getBrightness : Obligations.GetBrightness := by
  refine ⟨fun s => ⟨s.cfgBrightness.setWidth 8, toNat_setWidth_brightness _, ?_, exec_getBrt s⟩,
    fun p => ⟨_, exec_getBrt _, toNat_setWidth_brightness p.resetBrightness⟩⟩
  rw [toNat_setWidth_brightness]
  exact Nat.le_of_lt_succ s.cfgBrightness.isLt

end Sys2Proof.Machine
end

section
/-! PROOF. The conditions under which the block stops or waits (60, section 1): a reserved request is the only thing that
stops a legal state, and a wait without an acknowledge holds. -/

namespace Sys2Proof.Machine

/-! ### Reserved requests -/

/-- The reserved values of `OP`, 0x0 and 0x7 to 0xF (30 R79). -/
abbrev ReservedOp (op : BitVec 4) : Prop := op = 0 ∨ 7 ≤ op.toNat

/-- A reserved `OP` has no row in the request table (30 R79). -/
theorem decodeRequest_of_reserved {w : ReqWord} (h : ReservedOp (opField w)) :
    decodeRequest w = .reservedOp (opField w) := by
  have hop : (opField w).toNat = 0 ∨ 7 ≤ (opField w).toNat := h.imp_left fun h0 => by rw [h0]; rfl
  unfold decodeRequest
  split
  case h_7 => rfl
  all_goals omega

theorem accept_of_reserved {w : ReqWord} (h : ReservedOp (opField w)) (s : State) :
    accept w s = .refused (.reservedRequest (opField w)) := by
  simp only [accept, decodeRequest_of_reserved h]

/-- Any other `OP` is one of the six requests, and each of them answers a next state (43 R164). -/
theorem accept_answers {w : ReqWord} (h : ¬ ReservedOp (opField w)) (s : State) :
    ∃ t, accept w s = .next t := by
  obtain ⟨hzero, hseven⟩ := not_or.mp h
  have hpos : (opField w).toNat ≠ 0 := fun h0 => hzero (BitVec.eq_of_toNat_eq h0)
  obtain ⟨i, hi, t, ht⟩ : ∃ i, decodeRequest w = .instr i ∧ ∃ t, exec i s = .next t := by
    have hop : (opField w).toNat = 1 ∨ (opField w).toNat = 2 ∨ (opField w).toNat = 3 ∨ (opField w).toNat = 4 ∨
        (opField w).toNat = 5 ∨ (opField w).toNat = 6 := by omega
    obtain hop | hop | hop | hop | hop | hop := hop <;> simp only [decodeRequest, hop] <;>
      exact ⟨_, rfl, _, rfl⟩
  exact ⟨t, (accept_of_decodeRequest hi s).trans ht⟩

/-- Settles O4: an idle block accepts the word presented, and a reserved word is refused by the acceptance. -/
theorem reservedRefused : Obligations.ReservedRefused := fun _ hp hr hq hv hop =>
  (step_accept hp hr hq hv).trans (accept_of_reserved hop _)

/-- In a legal state the step answers a next state, or an idle block refuses a reserved request (60 R200, R201). -/
theorem step_answers_or_reserved {s : State} (h : s.Inv) :
    (∃ t, step s = .next t) ∨
    (s.pending = [] ∧ s.pins.rst = false ∧ s.pins.reqValid = true ∧ ReservedOp (opField s.pins.reqWord) ∧
      step s = .refused (.reservedRequest (opField s.pins.reqWord))) := by
  obtain ⟨hp, -, hprogram⟩ := h
  obtain ⟨hbad, -⟩ | ⟨-, -, hs⟩ | ⟨-, -, a, rest, hq, hs⟩ | ⟨-, hr, hq, hv, hs⟩ | ⟨-, -, -, -, hs⟩ := step_cases s
  · exact absurd hp hbad
  · exact .inl ⟨_, hs⟩
  · obtain ⟨t, ht⟩ := performAction_answers (a := a) (s := s.tick) s.dioI hp
      fun v hv hstops => hprogram.stop_closes_legal (hv ▸ hq) hstops
    exact .inl ⟨t, hs.trans ht⟩
  · by_cases hop : ReservedOp (opField s.pins.reqWord)
    · exact .inr ⟨hq, hr, hv, hop, hs.trans (accept_of_reserved hop _)⟩
    · obtain ⟨t, ht⟩ := accept_answers hop s.tick
      exact .inl ⟨t, hs.trans ht⟩
  · exact .inl ⟨_, hs⟩

/-- Settles O56: the invariant makes every stop condition close a legal transaction, so the only outcome other than a
next state is the refusal of a reserved request. -/
theorem onlyReservedRequestsStop : Obligations.OnlyReservedRequestsStop := by
  intro s hinv
  obtain ⟨t, ht⟩ | ⟨hq, hr, hv, hop, hs⟩ := step_answers_or_reserved hinv
  · rw [ht]
    exact ⟨nofun, nofun⟩
  · rw [hs]
    refine ⟨nofun, fun r hr' => ?_⟩
    cases hr'
    exact ⟨hq, hr, hv, rfl, hop⟩

/-! ### The wait without an acknowledge -/

/-- In the next `k` steps the host gives its input pins, and neither a reset nor the peripheral's pull comes. -/
def State.NoAckFor (s : State) (k : Nat) : Prop :=
  ∀ j, j < k → ∃ now, s.env[j]? = some now ∧ now.rst = false ∧ now.periphLow = false

/-- The head of the input list is what the step to come sees on the pins (10 R31). -/
theorem State.pins_of_env {s : State} {now : Pins} (h : s.env[0]? = some now) : s.pins = now := by
  cases henv : s.env with
  | nil => simp [henv] at h
  | cons first later => simpa [State.pins, henv] using h

theorem State.NoAckFor.pins {s : State} {k : Nat} (h : s.NoAckFor (k + 1)) :
    s.pins.rst = false ∧ s.pins.periphLow = false := by
  obtain ⟨now, hnow, hpins⟩ := h 0 k.succ_pos
  rwa [State.pins_of_env hnow]

theorem State.NoAckFor.tick {s : State} {k : Nat} (h : s.NoAckFor (k + 1)) : s.tick.NoAckFor k := by
  intro j hj
  simpa using h (j + 1) (Nat.succ_lt_succ hj)

/-- At `WAIT_ACK` with the line released and not pulled low, the sample is 1 and the step only ticks (41 R115). -/
theorem step_holds {s : State} {rest : List Action} (hp : s.params.WF) (hr : s.pins.rst = false)
    (hq : s.pending = .waitAck :: rest) (hdio : s.dioO = true) (hlow : s.pins.periphLow = false) :
    step s = .next s.tick := by
  have hsample : s.dioI = true := by simp [State.dioI, dioLine, hdio, hlow]
  rw [step_action hp hr hq, hsample, performAction, performWaitAck, if_pos rfl]

/-- As long as no acknowledge and no reset comes, a run only uses up input pins and draws, and lets `RSP_VALID` fall
(60 R202). -/
theorem run_holds (k : Nat) {s : State} {rest : List Action} (hp : s.params.WF)
    (hq : s.pending = .waitAck :: rest) (hdio : s.dioO = true) (hnoAck : s.NoAckFor k) :
    ∃ draws valid, core.run k s
      = .next ({ s with env := s.env.drop k, draws := draws, rspValid := valid } : State) := by
  induction k generalizing s with
  | zero => exact ⟨s.draws, s.rspValid, rfl⟩
  | succ k ih =>
    obtain ⟨hr, hlow⟩ := hnoAck.pins
    obtain ⟨draws, valid, hrun⟩ := ih (s := s.tick) hp hq hdio hnoAck.tick
    refine ⟨draws, valid, ?_⟩
    rw [run_succ (step_holds hp hr hq hdio hlow), hrun, State.tick_env, List.drop_tail]
    rfl

/-- Settles O21: the run writes the model's input list and draws and the response flag alone. -/
theorem acknowledgeHang : Obligations.AcknowledgeHang := by
  intro k s rest hp hq hdio henv
  obtain ⟨draws, valid, hrun⟩ := run_holds k hp hq hdio henv
  refine ⟨_, hrun, rfl, ?_, ?_, rfl, rfl, rfl, rfl, ⟨rfl, rfl, rfl, rfl⟩, ⟨rfl, rfl, rfl, rfl⟩⟩
  all_goals simp [State.reqReady, State.busy, hq]

end Sys2Proof.Machine
end

section
/-! PROOF. The reset step (70 R220), and what the action programs of the requests count up to in actions and in cycles
(70 R233, R234). -/

namespace Sys2Proof.Machine

/-! ### Reset -/

/-- Settles O16: `RST` goes before the head action and the acceptance, and `State.resetStep` gives every register and
pin its reset value; with `PENDING` empty the two flags follow. -/
theorem resetStep : Obligations.ResetStep := fun _ hp hr =>
  ⟨_, step_rst hp hr, rfl, rfl, rfl, rfl, rfl, rfl, rfl, rfl, rfl, rfl, rfl, rfl⟩

/-! ### Action counts -/

theorem addsUp_countP (f : Action → Bool) : AddsUp (List.countP f) := fun _ _ => List.countP_append

/-- The waits, acknowledge waits and line actions of a transaction of any number of bytes (70 R233). -/
theorem txn_actionCounts (bytes : List Byte) :
    (txn bytes).countP Action.isWait = 5 + 18 * bytes.length ∧
    (txn bytes).count .waitAck = bytes.length ∧
    (txn bytes).countP Action.isLine = 7 + 29 * bytes.length := by
  obtain ⟨hack, -, -⟩ := transactionCounts.1 bytes
  refine ⟨?_, hack, ?_⟩
  · calc (txn bytes).countP Action.isWait
        = 2 + bytes.length * 18 + 3 := (addsUp_countP Action.isWait).txn (n := 2) (by decide) bytes
      _ = 5 + 18 * bytes.length := by omega
  · calc (txn bytes).countP Action.isLine
        = 3 + bytes.length * 29 + 4 := (addsUp_countP Action.isLine).txn (n := 3) (by decide) bytes
      _ = 7 + 29 * bytes.length := by omega

/-- Settles O25: a setter's program is a transaction of one byte, and a display write's is one of one byte and then one
of five. -/
theorem requestActionCounts : Obligations.RequestActionCounts := by
  constructor
  · intro c
    obtain ⟨hwait, hack, hline⟩ := txn_actionCounts [c]
    exact ⟨(transactionLength Config.params [c]).1, hwait, hack, hline⟩
  · intro p c0 c1 c2 c3
    obtain ⟨hwait, hack, hline⟩ := txn_actionCounts [cmdDataWrite p]
    obtain ⟨hwait', hack', hline'⟩ := txn_actionCounts (contentFrame p [c0, c1, c2, c3])
    have hlen := (transactionLength p [cmdDataWrite p]).1
    have hlen' := (transactionLength p (contentFrame p [c0, c1, c2, c3])).1
    rw [contentProgram, writeCommand, addsUp_length, addsUp_countP, addsUp_count, addsUp_countP,
      hlen, hlen', hwait, hwait', hack, hack', hline, hline']
    exact ⟨rfl, rfl, rfl, rfl⟩

/-! ### Cycles -/

/-- A line action and a sample take one cycle, and a wait `CYCLES_PER_US` for each microsecond (70 R234). -/
theorem Action.cycles_eq (p : Params) (a : Action) :
    a.cycles p = (if a.isLine then 1 else 0) + (if a == .waitAck then 1 else 0) + a.micros p * p.cyclesPerUs := by
  cases a <;> simp [Action.cycles, Action.micros, Action.isLine]

/-- The cycles of a program by the kinds of its actions, with one sample at each acknowledge wait (70 R234). -/
theorem sum_cycles (p : Params) (program : List Action) :
    (program.map (Action.cycles p)).sum
      = program.countP Action.isLine + program.count .waitAck + waitMicros p program * p.cyclesPerUs := by
  induction program with
  | nil => simp [waitMicros]
  | cons a as ih =>
    have hmicros : waitMicros p (a :: as) = a.micros p + waitMicros p as := List.sum_cons
    rw [List.map_cons, List.sum_cons, ih, a.cycles_eq, hmicros, Nat.add_mul, List.countP_cons, List.count_cons]
    omega

/-- Settles O26: the line actions and the first samples of a transaction of `k` bytes are `7 + 29k` and `k`. -/
theorem transactionCycles : Obligations.TransactionCycles := by
  intro p bytes holds
  obtain ⟨-, hack, hline⟩ := txn_actionCounts bytes
  rw [requestCycles, sum_cycles, hline, hack]
  omega

end Sys2Proof.Machine
end

section
/-! PROOF. What a step that answers a next state has done (41 R118), and what follows of it for the parameters, the
trace and the configuration. -/

namespace Sys2Proof.Machine

/-- What a step that answers has done: a reset, the head action, the acceptance of a request, or nothing. -/
theorem step_next {s t : State} (h : step s = .next t) :
    (s.pins.rst = true ∧ t = s.tick.resetStep) ∨
    (∃ a rest, s.pins.rst = false ∧ s.pending = a :: rest ∧ performAction a s.dioI s.tick = .next t) ∨
    (∃ i, s.pins.rst = false ∧ s.pending = [] ∧ decodeRequest s.pins.reqWord = .instr i ∧
      exec i s.tick = .next t) ∨
    (s.pins.rst = false ∧ t = s.tick) := by
  obtain ⟨-, hs⟩ | ⟨-, hr, hs⟩ | ⟨-, hr, a, rest, hq, hs⟩ | ⟨-, hr, hq, -, hs⟩ | ⟨-, hr, -, -, hs⟩ := step_cases s
  · cases hs.symm.trans h
  · cases hs.symm.trans h
    exact .inl ⟨hr, rfl⟩
  · exact .inr (.inl ⟨a, rest, hr, hq, hs.symm.trans h⟩)
  · obtain ⟨i, hi, he⟩ := accept_next (hs.symm.trans h)
    exact .inr (.inr (.inl ⟨i, hr, hq, hi, he⟩))
  · cases hs.symm.trans h
    exact .inr (.inr (.inr ⟨hr, rfl⟩))

/-- A step with `RST` that answers is the reset step (70 R220). -/
theorem step_rst_next {s t : State} (h : step s = .next t) (hr : s.pins.rst = true) : t = s.tick.resetStep := by
  obtain ⟨-, ht⟩ | ⟨a, rest, hr', -⟩ | ⟨i, hr', -⟩ | ⟨hr', -⟩ := step_next h
  · exact ht
  all_goals simp [hr] at hr'

/-- Settles O14: a reset keeps the parameters, and neither an action nor a request writes them. -/
theorem parametersConstant : Obligations.ParametersConstant := by
  intro s t h
  obtain ⟨-, rfl⟩ | ⟨a, rest, -, -, ha⟩ | ⟨i, -, -, -, he⟩ | ⟨-, rfl⟩ := step_next h
  · rfl
  · obtain ⟨⟨hparams, -⟩, -⟩ := performAction_registers ha
    exact hparams
  · obtain ⟨hparams, -⟩ := exec_registers he
    exact hparams
  · rfl

/-! ### The trace -/

/-- A trace that has grown at its end by at most one event. -/
def State.GrowsByOne (s t : State) : Prop := ∃ events, t.trace = s.trace ++ events ∧ events.length ≤ 1

theorem State.growsByOne_of_eq {s t : State} (h : t.trace = s.trace) : s.GrowsByOne t :=
  ⟨[], by rw [h, List.append_nil], Nat.zero_le 1⟩

theorem State.growsByOne_of_event {s t : State} {e : Event} (h : t.trace = s.trace ++ [e]) : s.GrowsByOne t :=
  ⟨[e], h, Nat.le_refl 1⟩

/-- An action emits its own event and no other, or holds (41 R110, R115). -/
theorem performAction_growsByOne {a : Action} {sample : Bool} {s t : State}
    (h : performAction a sample s = .next t) : s.GrowsByOne t := by
  by_cases ha : a = .waitAck
  · subst ha
    rw [performAction, performWaitAck] at h
    split at h <;> cases h
    · exact State.growsByOne_of_eq rfl
    · exact State.growsByOne_of_event rfl
  · obtain ⟨-, htrace, -⟩ := performAction_drives ha h
    exact State.growsByOne_of_event htrace

/-- An instruction emits a getter's answer or nothing (43 R170, R172). -/
theorem exec_growsByOne {i : Instr} {s t : State} (h : exec i s = .next t) : s.GrowsByOne t := by
  cases i with
  | cmdAddressSet addr =>
    obtain ⟨dram, -, -, rfl⟩ := execCmdAddressSet_next h
    exact State.growsByOne_of_eq rfl
  | getState | getBrt => cases h; exact State.growsByOne_of_event rfl
  | _ => cases h; exact State.growsByOne_of_eq rfl

/-- Settles O13: a reset emits RESET, an action its own event or none, a request a getter's answer or none. -/
theorem oneEventPerStep : Obligations.OneEventPerStep := by
  intro s t h
  obtain ⟨-, rfl⟩ | ⟨a, rest, -, -, ha⟩ | ⟨i, -, -, -, he⟩ | ⟨-, rfl⟩ := step_next h
  · exact State.growsByOne_of_event (s := s) rfl
  · exact (performAction_growsByOne ha :)
  · exact (exec_growsByOne he :)
  · exact State.growsByOne_of_eq (s := s) rfl

/-! ### The configuration since a reset -/

/-- Only an accepted SETBRT changes the brightness (10 R21). -/
theorem configSet_keeps_brightness {request : Option Instr} (b : BitVec 3) (on : Bool)
    (h : ∀ level, request ≠ some (.setBrt level)) :
    ((request.bind (configSet b on)).getD (b, on)).1 = b := by
  obtain _ | i := request
  · rfl
  · cases i with
    | setBrt level => exact absurd rfl (h level)
    | _ => rfl

/-- Only an accepted SETSTATE changes the state (10 R22). -/
theorem configSet_keeps_state {request : Option Instr} (b : BitVec 3) (on : Bool)
    (h : ∀ v, request ≠ some (.setState v)) :
    ((request.bind (configSet b on)).getD (b, on)).2 = on := by
  obtain _ | i := request
  · rfl
  · cases i with
    | setState v => exact absurd rfl (h v)
    | _ => rfl

/-- Settles O60: a reset writes both parameters, and any other step writes what the accepted setter says. -/
theorem configurationSinceReset : Obligations.ConfigurationSinceReset := by
  intro s t h
  rw [parametersConstant s t h]
  cases hr : s.pins.rst with
  | true =>
    rw [step_rst_next h hr]
    exact ⟨fun _ _ => rfl, fun _ _ => rfl⟩
  | false =>
    have hcfg := configurationWriters s t h hr
    refine ⟨fun hb hnone => ?_, fun hs hnone => ?_⟩
    · exact ((congrArg Prod.fst hcfg).trans (configSet_keeps_brightness _ _ hnone)).trans hb
    · exact ((congrArg Prod.snd hcfg).trans (configSet_keeps_state _ _ hnone)).trans hs

end Sys2Proof.Machine
end

section
/-! PROOF. The frames of the six requests and of the three wire commands (10, section 1; 42, section 1), and what the
formulas of the command bytes give. -/

namespace Sys2Proof.Machine

/-! ### Requests -/

/-- A request word decodes to a request, never to a wire command (30 R73, R85). -/
theorem encode_of_decodeRequest {w : ReqWord} {i : Instr} (h : decodeRequest w = .instr i) (p : Params) :
    ∃ w', encode p i = .request w' := by
  unfold decodeRequest at h
  split at h <;> cases h <;> exact ⟨_, rfl⟩

/-- Every request answers a next state (43 R164). -/
theorem exec_request_answers {w : ReqWord} {i : Instr} (h : decodeRequest w = .instr i) (s : State) :
    ∃ t, exec i s = .next t := by
  obtain ⟨w', hw⟩ := encode_of_decodeRequest h s.params
  cases i with
  | cmdDataWrite | cmdDisplayControl | cmdAddressSet => cases hw
  | _ => exact ⟨_, rfl⟩

/-- Settles O36: each request is one or two operations of the state, and `Laws/State` says what each of them writes. -/
theorem requestFrame : Obligations.RequestFrame := by
  intro w i s t hi h
  obtain ⟨w', hw⟩ := encode_of_decodeRequest hi s.params
  cases i with
  | cmdDataWrite | cmdDisplayControl | cmdAddressSet => cases hw
  | _ => cases h; simp [State.SameDisplay, State.readCell]

/-! ### Wire commands -/

/-- Settles O43: the two arms of `exec` as they stand. -/
theorem settingCommands : Obligations.SettingCommands := fun _ => ⟨rfl, fun _ _ => rfl⟩

/-- Settles O46: a byte that decodes encodes its command, and each of the three commands writes one field of the
display. -/
theorem commandFrame : Obligations.CommandFrame := by
  intro p b i s t hc h
  have hencode := commandBytesExact p b i hc
  cases i with
  | cmdDataWrite | cmdDisplayControl => cases h; simp [State.SameRegisters, State.readCell]
  | cmdAddressSet addr =>
    obtain ⟨dram, -, -, rfl⟩ := execCmdAddressSet_next h
    simp [State.SameRegisters]
  | _ => cases hencode

/-- Settles O28: the two ways to write each command byte, by shift and OR and by its fields. -/
theorem commandFormulas : Obligations.CommandFormulas := fun p b on a =>
  ⟨encode_cmdDataWrite p, encode_cmdDisplayControl p b on, encode_cmdAddressSet p a⟩

/-! ### Where an address-set command stops -/

/-- Patterns that run past the last display address are not written (20 R51). -/
theorem Memory.writeFrom_eq_none (vs : List Byte) (m : Memory) (a : Nat) (ha : a ≤ Config.nDigits)
    (h : Config.nDigits < a + vs.length) : m.writeFrom a vs = none := by
  induction vs generalizing m a with
  | nil => exact absurd h (not_lt.mpr ha)
  | cons v vs ih =>
    rw [Memory.writeFrom, Option.bind_eq_none_iff]
    intro m' hw
    have hlt : a < Config.nDigits := (Memory.write_isSome m a v).mp (Option.isSome_of_eq_some hw)
    rw [List.length_cons] at h
    exact ih m' (a + 1) hlt (by omega)

/-- Settles O45: an address above 3 fails the first check, and patterns that run past address 3 are not written. -/
theorem addressSetStops : Obligations.AddressSetStops := by
  intro addr s h
  rw [exec, execCmdAddressSet]
  split
  case isFalse => rfl
  case isTrue ha =>
    have hpast : Config.nDigits < addr.toNat + s.patternsOnWire.length :=
      h.resolve_left (not_lt.mpr (Nat.le_of_lt_succ ha))
    rw [Memory.writeFrom_eq_none _ _ _ ha.le hpast]

/-! ### Where a wire command runs -/

/-- Settles O8: the rise that stops the transaction leaves its bytes on the wire, and closing it runs the command its
first byte decodes to. -/
theorem stepRunsCommand : Obligations.StepRunsCommand := by
  intro s rest c cs i hp hr hq hstops hbytes hc
  have hkept : ((s.tick.driveDio true).emit (.dio true)).advance.wire.bytes = c :: cs := by
    simp [Wire.onDio_of_stops hstops, hbytes]
  rw [step_action hp hr hq, performAction, performDio, State.tick_wire, State.tick_clkO, State.tick_dioO,
    if_pos hstops, closeTransaction, hkept]
  simp only [State.advance_params, State.emit_params, State.driveDio_params, State.tick_params, hc]

end Sys2Proof.Machine
end

section
/-! PROOF. What the peripheral's display holds after power-up and after a reset (70 R221, R225). -/

namespace Sys2Proof.Machine

/-- Settles O17: the reset state lists no cell, and the reset step empties the list and draws afresh exactly when it
finds the block busy. -/
theorem displayAfterReset : Obligations.DisplayAfterReset := by
  refine ⟨fun s a => Memory.read_isSome s.dram s.dramDraw a, fun p a ha => Memory.read_nil _ ha,
    fun s t _ hr h => ?_⟩
  have hbusy_tick : s.tick.busy = s.busy := rfl
  rw [step_rst_next h hr]
  constructor
  · intro hbusy
    refine ⟨fun a ha => ?_, ?_, ?_⟩
    · simpa [State.readCell, Memory.unlisted, hbusy_tick, hbusy] using Memory.read_nil (s.draws + 1) ha
    all_goals simp [hbusy_tick, hbusy]
  · intro hidle
    simp [State.SameDisplay, State.readCell, hbusy_tick, hidle]

end Sys2Proof.Machine
end

section
/-! PROOF. The invariant of a block (10, section 2; 42, section 3): it holds at reset, an action of a legal program
moves the link and the rest of the program on together, and a request is accepted with both lines high. -/

namespace Sys2Proof.Machine

/-! ### Reset -/

/-- Settles O54: nothing is pending at reset, no cell is listed and both lines are high. -/
theorem resetInvariant : Obligations.ResetInvariant := by
  have hreset : ∀ p : Params, p.WF → (State.resetWith p).Inv :=
    fun _ hp => ⟨hp, Memory.wf_nil, [], Wire.idle, .inl rfl, rfl⟩
  exact ⟨hreset, hreset Config.params (by decide)⟩

/-- A state with nothing pending and both lines high is on a program: the empty one (20 R57). -/
theorem State.onProgram_of_high {s : State} {w : Wire} (hq : s.pending = []) (hlink : s.link = Link.high w) :
    s.OnProgram :=
  ⟨[], w, .inl hq, hlink.symm⟩

theorem State.resetStep_inv {s : State} (h : s.Inv) : s.resetStep.Inv := by
  obtain ⟨hp, hdram, -⟩ := h
  refine ⟨hp, ?_, State.onProgram_of_high rfl rfl⟩
  rw [State.resetStep_dram]
  split
  · exact Memory.wf_nil
  · exact hdram

/-! ### Legal programs -/

theorem State.Inv.wf {s : State} (h : s.Inv) : s.params.WF := h.1

/-- A legal program leaves both lines high again (10 R29). -/
theorem LegalProgram.replay_high {p : Params} {program : List Action} (h : LegalProgram p program) (w : Wire) :
    ∃ w', (Link.high w).replay program = Link.high w' := by
  obtain rfl | ⟨b, on, rfl⟩ | ⟨c0, c1, c2, c3, rfl⟩ := h
  · exact ⟨w, rfl⟩
  · exact ⟨Wire.idle, (txn_sends w _).2⟩
  · refine ⟨Wire.idle, ?_⟩
    rw [contentProgram, writeCommand, Link.replay_append, (txn_sends w _).2]
    exact (txn_sends Wire.idle _).2

/-- In a legal state with nothing pending both lines are high (10 R29). -/
theorem State.Inv.link_high {s : State} (h : s.Inv) (hq : s.pending = []) : ∃ w, s.link = Link.high w := by
  obtain ⟨-, -, done, w, hlegal, hlink⟩ := h
  rw [hq, List.append_nil] at hlegal
  rw [← hlink]
  exact hlegal.replay_high w

/-- A display write loads the content program of a frame of four patterns, a legal one (43 R165, R168). -/
theorem exec_displayWrite_legal {i : Instr} {s t : State} {patterns : List Byte} (h : exec i s = .next t)
    (hi : patternsSent s.params i = some patterns) : LegalProgram s.params t.pending := by
  rw [exec_displayWrite_pending h hi]
  obtain ⟨c0, c1, c2, c3, rfl⟩ := List.length_eq_four.mp (patternsSent_length hi)
  exact .inr (.inr ⟨c0, c1, c2, c3, rfl⟩)

/-- A setter loads one display-control command, a legal program (43 R169, R171). -/
theorem exec_setter_legal {i : Instr} {s t : State} {b : BitVec 3} {on : Bool} (h : exec i s = .next t)
    (hi : configSet s.cfgBrightness s.cfgState i = some (b, on)) : LegalProgram s.params t.pending := by
  rw [exec_setter_pending h hi]
  exact .inr (.inl ⟨b, on, rfl⟩)

/-- A request leaves `PENDING` as it is or loads a legal program (20 R57, 42 R146). -/
theorem exec_request_pending {w : ReqWord} {i : Instr} {s t : State} (hi : decodeRequest w = .instr i)
    (h : exec i s = .next t) : t.pending = s.pending ∨ LegalProgram s.params t.pending := by
  obtain ⟨w', hw⟩ := encode_of_decodeRequest hi s.params
  cases i with
  | dispDec | dispRaw => exact .inr (exec_displayWrite_legal h rfl)
  | setState | setBrt => exact .inr (exec_setter_legal h rfl)
  | getState | getBrt => exact .inl (exec_getter_pending h rfl)
  | _ => cases hw

/-- A request touches neither the lines nor the wire (43 R164). -/
theorem exec_request_link {w : ReqWord} {i : Instr} {s t : State} (hi : decodeRequest w = .instr i)
    (h : exec i s = .next t) : t.link = s.link := by
  obtain ⟨-, hclk, hdio, hwire, -⟩ := requestFrame w i s t hi h
  rw [State.link, State.link, hclk, hdio, hwire]

/-- A request accepted in a legal idle state leaves a legal state: the program it loads starts with both lines high. -/
theorem exec_request_inv {w : ReqWord} {i : Instr} {s t : State} (hs : s.Inv) (hq : s.pending = [])
    (hi : decodeRequest w = .instr i) (h : exec i s = .next t) : t.Inv := by
  obtain ⟨hparams, -, -, -, ⟨hdram, -⟩, -⟩ := requestFrame w i s t hi h
  obtain ⟨v, hhigh⟩ := hs.link_high hq
  have hlink : t.link = Link.high v := (exec_request_link hi h).trans hhigh
  obtain ⟨hp, hmem, -⟩ := hs
  refine ⟨hparams ▸ hp, hdram ▸ hmem, ?_⟩
  obtain hsame | hlegal := exec_request_pending hi h
  · exact State.onProgram_of_high (hsame.trans hq) hlink
  · exact ⟨[], v, hparams ▸ hlegal, hlink.symm⟩

/-! ### Performing an action -/

/-- An action moves the link as `Link.act` says, the stop condition that clears the wire included (41 R110). -/
theorem performAction_link {a : Action} {sample : Bool} {s t : State} (h : performAction a sample s = .next t) :
    t.link = s.link.act a := by
  obtain ⟨v, rfl, rfl⟩ | ⟨v, rfl, hstops, rfl⟩ | ⟨v, rfl, hstops, hclose⟩ | ⟨d, rfl, rfl⟩ | ⟨rfl, -, rfl⟩ |
    ⟨rfl, -, rfl⟩ := performAction_next h
  · rfl
  · simp [State.link, Link.act, hstops]
  · obtain ⟨dram, dctrl, dataMode, rfl⟩ := closeTransaction_frame hclose
    simp [State.link, Link.act, hstops]
  all_goals rfl

/-- An action is removed when it is performed; only a `WAIT_ACK` with a sample of 1 stays (41 R110, R115). -/
theorem performAction_pending {a : Action} {sample : Bool} {s t : State} (h : performAction a sample s = .next t) :
    t.pending = s.pending.tail ∨ (a = .waitAck ∧ sample = true ∧ t = s) := by
  obtain ⟨v, rfl, rfl⟩ | ⟨v, rfl, -, rfl⟩ | ⟨v, rfl, -, hclose⟩ | ⟨d, rfl, rfl⟩ | ⟨rfl, -, rfl⟩ | hholds :=
    performAction_next h
  case inr.inr.inl =>
    obtain ⟨dram, dctrl, dataMode, rfl⟩ := closeTransaction_frame hclose
    exact .inl rfl
  case inr.inr.inr.inr.inr => exact .inr hholds
  all_goals exact .inl rfl

/-- An instruction keeps the canonical form of the display memory: only address-set writes it (20 R56). -/
theorem exec_dram_wf {i : Instr} {s t : State} (h : exec i s = .next t) (hs : s.dram.wf) : t.dram.wf := by
  cases i with
  | cmdAddressSet addr =>
    obtain ⟨dram, -, hw, rfl⟩ := execCmdAddressSet_next h
    exact Memory.wf_writeFrom hs hw
  | _ => cases h; exact hs

/-- An action keeps the canonical form: only a stop condition can reach the display memory (20 R56). -/
theorem performAction_dram_wf {a : Action} {sample : Bool} {s t : State} (hs : s.dram.wf)
    (h : performAction a sample s = .next t) : t.dram.wf := by
  obtain ⟨v, -, rfl⟩ | ⟨v, -, -, rfl⟩ | ⟨v, -, -, hclose⟩ | ⟨d, -, rfl⟩ | ⟨-, -, rfl⟩ | ⟨-, -, rfl⟩ :=
    performAction_next h
  case inr.inr.inl =>
    obtain ⟨-, rfl⟩ | ⟨c, rest, i, u, -, -, hu, rfl⟩ := closeTransaction_next hclose
    · exact hs
    · exact (exec_dram_wf hu hs :)
  all_goals exact hs

/-- The action performed goes over from what is pending to what is done, and the link follows it. -/
theorem State.OnProgram.perform {s t : State} {a : Action} {rest : List Action} (h : s.OnProgram)
    (hq : s.pending = a :: rest) (hparams : t.params = s.params) (hpending : t.pending = rest)
    (hlink : t.link = s.link.act a) : t.OnProgram := by
  obtain ⟨done, w, hlegal, hreplay⟩ := h
  refine ⟨done ++ [a], w, ?_, ?_⟩
  · rw [hparams, hpending, List.append_assoc, List.singleton_append, ← hq]
    exact hlegal
  · rw [Link.replay_append, hreplay, Link.replay_cons, Link.replay_nil, hlink]

theorem performAction_inv {a : Action} {rest : List Action} {sample : Bool} {s t : State} (hs : s.Inv)
    (hq : s.pending = a :: rest) (h : performAction a sample s = .next t) : t.Inv := by
  obtain ⟨hpending⟩ | ⟨-, -, rfl⟩ := performAction_pending h
  · obtain ⟨hp, hdram, hprogram⟩ := hs
    obtain ⟨⟨hparams, -⟩, -⟩ := performAction_registers h
    rw [hq, List.tail_cons] at hpending
    exact ⟨hparams ▸ hp, performAction_dram_wf hdram h,
      hprogram.perform hq hparams hpending (performAction_link h)⟩
  · exact hs

/-! ### The step -/

/-- What a step does to the model's own fields first is outside the invariant. -/
theorem State.tick_inv {s : State} (h : s.Inv) : s.tick.Inv := h

/-- Settles O55: a reset leaves the lines high with nothing pending, an action goes over to what is done, a request is
accepted with both lines high, and an idle step only ticks. -/
theorem stepKeepsInvariant : Obligations.StepKeepsInvariant := by
  intro s t hs h
  have htick := State.tick_inv hs
  obtain ⟨-, rfl⟩ | ⟨a, rest, -, hq, ha⟩ | ⟨i, -, hq, hi, he⟩ | ⟨-, rfl⟩ := step_next h
  · exact State.resetStep_inv htick
  · exact performAction_inv htick hq ha
  · exact exec_request_inv htick hq hi he
  · exact htick

end Sys2Proof.Machine
end

section
/-! PROOF. What the invariant says of the lines and of `PENDING` (10, sections 2 and 3): where the lines stand between
the actions of a legal program, and how long it is. -/

namespace Sys2Proof.Machine

/-- Settles O27: `txn_sends` from the idle lines. -/
theorem transactionCarriesItsBytes : Obligations.TransactionCarriesItsBytes := txn_sends Wire.idle

/-- Settles O57: what is pending is the end of a legal program, and the longest has 312 actions. -/
theorem pendingBounded : Obligations.PendingBounded := by
  rintro s ⟨-, -, done, w, hlegal, -⟩
  suffices hlength : (done ++ s.pending).length ≤ 312 by
    rw [List.length_append] at hlength
    omega
  obtain ⟨hcommand, hcontent⟩ := requestActionCounts
  obtain hprogram | ⟨b, on, hprogram⟩ | ⟨c0, c1, c2, c3, hprogram⟩ := hlegal
  · rw [hprogram]
    exact Nat.zero_le 312
  · rw [hprogram, (hcommand _).1]
    decide
  · rw [hprogram, (hcontent ..).1]

/-- Settles O58: a legal program that is done leaves both lines high. -/
theorem idleLinesHigh : Obligations.IdleLinesHigh := by
  intro s hs hidle
  have hq : s.pending = [] := by simpa [State.busy] using hidle
  obtain ⟨w, hlink⟩ := hs.link_high hq
  exact ⟨congrArg Link.clk hlink, congrArg Link.dio hlink⟩

/-! ### The link between the actions of a legal program -/

/-- Where a legal program has the link when an action is at its head: the data line is low only inside a transaction
(41 R111, R112), and at a wait for an acknowledge the clock is low and the data line released (41 R114). -/
def Link.ReadyFor (l : Link) (a : Action) : Prop :=
  (l.dio = false → l.wire.active = true) ∧ (a = .waitAck → l.clk = false ∧ l.dio = true)

/-- The link is ready for each action of a list in turn. -/
def Link.ReadyAlong : Link → List Action → Prop
  | _, [] => True
  | l, a :: as => l.ReadyFor a ∧ (l.act a).ReadyAlong as

theorem Link.readyAlong_append (l : Link) (as bs : List Action) :
    l.ReadyAlong (as ++ bs) ↔ l.ReadyAlong as ∧ (l.replay as).ReadyAlong bs := by
  induction as generalizing l with
  | nil => exact ⟨fun h => ⟨trivial, h⟩, And.right⟩
  | cons a as ih => rw [List.cons_append, Link.ReadyAlong, Link.ReadyAlong, ih, Link.replay_cons, and_assoc]

/-- Inside a transaction the link is ready along the list, and after it the transaction is still open. -/
def StaysInside (as : List Action) : Prop :=
  ∀ l : Link, l.wire.active = true → l.ReadyAlong as ∧ (l.replay as).wire.active = true

theorem StaysInside.append {as bs : List Action} (has : StaysInside as) (hbs : StaysInside bs) :
    StaysInside (as ++ bs) := by
  intro l hl
  obtain ⟨hready, hinside⟩ := has l hl
  obtain ⟨hready', hinside'⟩ := hbs _ hinside
  exact ⟨(l.readyAlong_append as bs).mpr ⟨hready, hready'⟩, by rwa [Link.replay_append]⟩

theorem StaysInside.flatMap {α : Type} {f : α → List Action} (hf : ∀ x, StaysInside (f x)) (xs : List α) :
    StaysInside (xs.flatMap f) := by
  induction xs with
  | nil => exact fun l hl => ⟨trivial, hl⟩
  | cons x xs ih => exact List.flatMap_cons ▸ (hf x).append ih

/-- The clock neither opens nor ends a transaction (41 R119). -/
@[simp] theorem Wire.onClk_active (w : Wire) (clk dio v : Bool) : (w.onClk clk dio v).active = w.active := by
  unfold Wire.onClk
  split_ifs <;> rfl

/-- A bit cell moves the data line with the clock low (41 R113). -/
theorem staysInside_bitCell (v : Bool) : StaysInside (bitCell v) := by
  intro l hl
  simp [bitCell, Link.ReadyAlong, Link.ReadyFor, Link.act, Wire.stops, Wire.onDio, hl]

/-- The acknowledge waits with the clock low and the data line released (41 R114). -/
theorem staysInside_ackSeq : StaysInside ackSeq := by
  intro l hl
  simp [ackSeq, Link.ReadyAlong, Link.ReadyFor, Link.act, Wire.stops, Wire.onDio, hl]

theorem staysInside_byteSeq (b : Byte) : StaysInside (byteSeq b) :=
  (StaysInside.flatMap staysInside_bitCell (bitsOf b)).append staysInside_ackSeq

/-- The start pulls the data line low by opening the transaction (41 R111). -/
theorem readyAlong_startSeq (w : Wire) : (Link.high w).ReadyAlong startSeq := by
  simp [startSeq, Link.ReadyAlong, Link.ReadyFor, Link.act, Link.high, Wire.onDio, Wire.stops]

/-- The stop releases the data line as it ends the transaction (41 R112). -/
theorem readyAlong_stopSeq {l : Link} (hl : l.wire.active = true) : l.ReadyAlong stopSeq := by
  simp [stopSeq, Link.ReadyAlong, Link.ReadyFor, Link.act, Wire.stops, Wire.onDio, hl]

theorem readyAlong_txn (w : Wire) (bytes : List Byte) : (Link.high w).ReadyAlong (txn bytes) := by
  have hopen : ((Link.high w).replay startSeq).wire.active = true := by rw [Link.replay_startSeq]
  obtain ⟨hready, hinside⟩ := StaysInside.flatMap staysInside_byteSeq bytes _ hopen
  rw [txn, Link.readyAlong_append, Link.readyAlong_append, Link.replay_append]
  exact ⟨⟨readyAlong_startSeq w, hready⟩, readyAlong_stopSeq hinside⟩

theorem LegalProgram.readyAlong {p : Params} {program : List Action} (h : LegalProgram p program) (w : Wire) :
    (Link.high w).ReadyAlong program := by
  obtain rfl | ⟨b, on, rfl⟩ | ⟨c0, c1, c2, c3, rfl⟩ := h
  · trivial
  · exact readyAlong_txn w _
  · rw [contentProgram, writeCommand, Link.readyAlong_append, (txn_sends w _).2]
    exact ⟨readyAlong_txn w _, readyAlong_txn Wire.idle _⟩

/-- In a legal state the link is ready for the action at the head of `PENDING`. -/
theorem State.Inv.readyFor {s : State} {a : Action} {rest : List Action} (h : s.Inv) (hq : s.pending = a :: rest) :
    s.link.ReadyFor a := by
  obtain ⟨-, -, done, w, hlegal, hlink⟩ := h
  obtain ⟨-, hready⟩ := (Link.readyAlong_append ..).mp (hlegal.readyAlong w)
  rw [hlink, hq] at hready
  exact hready.1

/-- In a legal state the data line is low only inside a transaction. -/
theorem State.Inv.active_of_low {s : State} (h : s.Inv) (hlow : s.dioO = false) : s.wire.active = true := by
  cases hq : s.pending with
  | cons a rest => exact (h.readyFor hq).1 hlow
  | nil =>
    obtain ⟨-, hhigh⟩ := idleLinesHigh s h (by simp [State.busy, hq])
    simp [hlow] at hhigh

/-! ### The statements -/

/-- Settles O20: the link is ready for the wait, and the wired-AND with a released line is the pull alone. -/
theorem waitingLines : Obligations.WaitingLines := by
  intro s rest hs hq
  obtain ⟨hclk, hdio⟩ : s.clkO = false ∧ s.dioO = true := (hs.readyFor hq).2 rfl
  exact ⟨hclk, hdio, by rw [State.dioI, dioLine, hdio, Bool.true_and]⟩

/-- What the reset step adds to the transactions, read on from the lines it leaves (70 R221). -/
theorem sentFrom_resetStep (s : State) (later : List Event) :
    sentFrom s.link (.reset :: later)
      = (if s.wire.stops s.clkO s.dioO true then [s.wire.bytes] else []) ++
        sentFrom s.tick.resetStep.link later :=
  sentFrom_reset s.link later

/-- Settles O59: with the clock high and the data low the transaction is open, so the rise stops it; with the clock low
or the data high there is no such rise. -/
theorem resetStopCondition : Obligations.ResetStopCondition := by
  intro s t hs hr h
  rw [step_rst_next h hr]
  constructor
  · rintro ⟨hclk, hdio⟩
    have hstops : s.wire.stops s.clkO s.dioO true = true := by
      simp [Wire.stops, hs.active_of_low hdio, hclk, hdio]
    have hwire : s.tick.resetStep.wire = Wire.idle := Wire.onReset_stop hstops
    exact ⟨hwire, fun later => by rw [sentFrom_resetStep, if_pos hstops, List.singleton_append]⟩
  · intro hlines
    have hkeeps : s.wire.stops s.clkO s.dioO true = false := by
      obtain hclk | hdio := hlines
      · simp [Wire.stops, hclk]
      · simp [Wire.stops, hdio]
    have hwire : s.tick.resetStep.wire = s.wire := Wire.onReset_keep hkeeps
    exact ⟨hwire, fun later => by rw [sentFrom_resetStep, if_neg (ne_true_of_eq_false hkeeps), List.nil_append]⟩

end Sys2Proof.Machine
end

section
/-! PROOF. Runs with an acknowledge at every sample (60 R203): the block performs its program action by action, and the
peripheral takes the transactions the program sends, one after the other. -/

namespace Sys2Proof.Machine

/-! ### What the peripheral takes -/

theorem State.SameDisplay.trans {s t u : State} (hst : s.SameDisplay t) (htu : t.SameDisplay u) :
    s.SameDisplay u := by
  obtain ⟨hdram, hdraw, hdctrl, hmode⟩ := hst
  obtain ⟨hdram', hdraw', hdctrl', hmode'⟩ := htu
  exact ⟨hdram'.trans hdram, hdraw'.trans hdraw, hdctrl'.trans hdctrl, hmode'.trans hmode⟩

theorem State.SameRegisters.trans {s t u : State} (hst : s.SameRegisters t) (htu : t.SameRegisters u) :
    s.SameRegisters u := by
  obtain ⟨hparams, hbrightness, hstate, hdata⟩ := hst
  obtain ⟨hparams', hbrightness', hstate', hdata'⟩ := htu
  exact ⟨hparams'.trans hparams, hbrightness'.trans hbrightness, hstate'.trans hstate, hdata'.trans hdata⟩

/-- The display of `t` is that of `s` after these transactions, each closed in turn (20 R56). -/
def State.Takes (s : State) : List (List Byte) → State → Prop
  | [], t => s.SameDisplay t ∧ t.params = s.params
  | bytes :: later, t => ∃ u v, (s.SameDisplay u ∧ u.params = s.params) ∧ u.wire.bytes = bytes ∧
      closeTransaction u = .next v ∧ v.Takes later t

/-- What a display takes depends on the display and the parameters alone. -/
theorem State.Takes.of_sameDisplay {s u t : State} {sent : List (List Byte)} (h : u.Takes sent t)
    (hdisplay : s.SameDisplay u) (hparams : u.params = s.params) : s.Takes sent t := by
  cases sent with
  | nil =>
    obtain ⟨hdisplay', hparams'⟩ := h
    exact ⟨hdisplay.trans hdisplay', hparams'.trans hparams⟩
  | cons bytes later =>
    obtain ⟨v, x, ⟨hdisplay', hparams'⟩, hclose⟩ := h
    exact ⟨v, x, ⟨hdisplay.trans hdisplay', hparams'.trans hparams⟩, hclose⟩

theorem State.Takes.append {s u t : State} {sent later : List (List Byte)} (hsu : s.Takes sent u)
    (hut : u.Takes later t) : s.Takes (sent ++ later) t := by
  induction sent generalizing s with
  | nil => exact hut.of_sameDisplay hsu.1 hsu.2
  | cons bytes sent ih =>
    obtain ⟨v, x, hsame, hbytes, hclose, hrest⟩ := hsu
    exact ⟨v, x, hsame, hbytes, hclose, ih hrest⟩

/-- A transaction that begins with the byte of a command runs that command on its patterns (20 R56). -/
theorem State.Takes.command {s t : State} {i : Instr} {c : Byte} {patterns : List Byte} {later : List (List Byte)}
    (hp : s.params.WF) (hc : encode s.params i = .command c) (h : s.Takes ((c :: patterns) :: later) t) :
    ∃ u v, (s.SameDisplay u ∧ u.params = s.params) ∧ u.patternsOnWire = patterns ∧ exec i u = .next v ∧
      v.clearWire.Takes later t := by
  obtain ⟨u, x, ⟨hdisplay, hparams⟩, hbytes, hclose, hrest⟩ := h
  rw [← hparams] at hp hc
  rw [closeTransaction_of_command hp hbytes hc] at hclose
  obtain ⟨v, hv, rfl⟩ := endTransaction_next hclose
  exact ⟨u, v, ⟨hdisplay, hparams⟩, congrArg List.tail hbytes, hv, hrest⟩

/-- The data-write command sets the write mode (30 R81; log 10). -/
theorem State.Takes.dataWrite {s t : State} {later : List (List Byte)} (hp : s.params.WF)
    (h : s.Takes ([cmdDataWrite s.params] :: later) t) :
    State.Takes { s with dataMode := cmdDataWrite s.params } later t := by
  obtain ⟨u, v, ⟨⟨hdram, hdraw, hdctrl, -⟩, hparams⟩, -, hv, hrest⟩ := h.command hp (encode_cmdDataWrite _)
  cases hv
  exact hrest.of_sameDisplay ⟨hdram, hdraw, hdctrl, congrArg cmdDataWrite hparams⟩ hparams

/-- The display-control command sets `DCTRL` (95, section 3). -/
theorem State.Takes.displayControl {s t : State} {b : BitVec 3} {on : Bool} {later : List (List Byte)}
    (hp : s.params.WF) (h : s.Takes ([cmdDisplayControl s.params b on] :: later) t) :
    State.Takes { s with dctrl := cmdDisplayControl s.params b on } later t := by
  obtain ⟨u, v, ⟨⟨hdram, hdraw, -, hmode⟩, hparams⟩, -, hv, hrest⟩ := h.command hp (encode_cmdDisplayControl ..)
  cases hv
  exact hrest.of_sameDisplay ⟨hdram, hdraw, congrArg (cmdDisplayControl · b on) hparams, hmode⟩ hparams

/-- A content frame writes its patterns from display address 0 on (20 R53, R56). -/
theorem State.Takes.content {s t : State} {patterns : List Byte} {later : List (List Byte)} (hp : s.params.WF)
    (h : s.Takes (contentFrame s.params patterns :: later) t) :
    ∃ dram, s.dram.writeFrom 0 patterns = some dram ∧ State.Takes { s with dram := dram } later t := by
  obtain ⟨u, v, ⟨⟨hdram, hdraw, hdctrl, hmode⟩, hparams⟩, hpatterns, hv, hrest⟩ :=
    h.command hp (encode_cmdAddressSet ..)
  obtain ⟨dram, -, hw, rfl⟩ := execCmdAddressSet_next hv
  rw [hdram, hpatterns] at hw
  exact ⟨dram, hw, hrest.of_sameDisplay ⟨rfl, hdraw, hdctrl, hmode⟩ hparams⟩

/-- A content program sends the data-write command and then its frame, whatever a reset has left on the wire before it
(43 R166). -/
theorem sentFrom_contentProgram (w : Wire) (p : Params) (frame : List Byte) :
    sentFrom (Link.high w) ((contentProgram p frame).map Action.event) = [[cmdDataWrite p], frame] := by
  obtain ⟨hcommand, hidle⟩ := txn_sends w [cmdDataWrite p]
  rw [contentProgram, writeCommand, sentFrom_map_append, hcommand, hidle, Link.idle, (txn_sends _ frame).1,
    List.singleton_append]

/-! ### Performing a list of actions -/

/-- From `s` the block has performed these actions and nothing else, and is in `t` (41 R110). -/
structure State.Performs (s : State) (as : List Action) (t : State) : Prop where
  pending : s.pending = as ++ t.pending
  link : t.link = s.link.replay as
  trace : t.trace = s.trace ++ as.map Action.event
  registers : s.SameRegisters t
  takes : s.Takes (sentFrom s.link (as.map Action.event)) t

theorem State.Performs.nil (s : State) : s.Performs [] s :=
  ⟨rfl, rfl, (List.append_nil _).symm, ⟨rfl, rfl, rfl, rfl⟩, ⟨rfl, rfl, rfl, rfl⟩, rfl⟩

theorem State.Performs.append {s u t : State} {as bs : List Action} (hsu : s.Performs as u)
    (hut : u.Performs bs t) : s.Performs (as ++ bs) t where
  pending := by rw [hsu.pending, hut.pending, List.append_assoc]
  link := by rw [hut.link, hsu.link, Link.replay_append]
  trace := by rw [hut.trace, hsu.trace, List.map_append, List.append_assoc]
  registers := hsu.registers.trans hut.registers
  takes := by
    rw [sentFrom_map_append, ← hsu.link]
    exact hsu.takes.append hut.takes

/-- The peripheral takes the transaction an action's stop condition ends, and none from any other action (20 R56). -/
theorem performAction_takes {a : Action} {sample : Bool} {s t : State} (h : performAction a sample s = .next t) :
    s.Takes (sentFrom s.link [a.event]) t := by
  have hsame : ∀ u : State, u.SameDisplay u := fun _ => ⟨rfl, rfl, rfl, rfl⟩
  obtain ⟨v, rfl, rfl⟩ | ⟨v, rfl, hstops, rfl⟩ | ⟨v, rfl, hstops, hclose⟩ | ⟨d, rfl, rfl⟩ | ⟨rfl, -, rfl⟩ |
    ⟨rfl, -, rfl⟩ := performAction_next h
  case inr.inl =>
    have hgoes : s.link.wire.stops s.link.clk s.link.dio v = false := hstops
    rw [Action.event, sentFrom, if_neg (ne_true_of_eq_false hgoes)]
    exact ⟨hsame s, rfl⟩
  case inr.inr.inl =>
    have hends : s.link.wire.stops s.link.clk s.link.dio v = true := hstops
    rw [Action.event, sentFrom, if_pos hends]
    exact ⟨((s.driveDio v).emit (.dio v)).advance, t, ⟨hsame s, rfl⟩,
      congrArg Wire.bytes (Wire.onDio_of_stops hstops), hclose, hsame t, rfl⟩
  all_goals exact ⟨hsame _, rfl⟩

/-- An action that does not hold is performed, and uses up no input pins of its own (41 R110, R115). -/
theorem performAction_performs {a : Action} {rest : List Action} {sample : Bool} {s t : State}
    (hq : s.pending = a :: rest) (hsample : a = .waitAck → sample = false)
    (h : performAction a sample s = .next t) : s.Performs [a] t ∧ t.env = s.env := by
  obtain ⟨hpending, htrace, henv⟩ :
      t.pending = s.pending.tail ∧ t.trace = s.trace ++ [a.event] ∧ t.env = s.env := by
    by_cases ha : a = .waitAck
    · subst ha
      rw [hsample rfl] at h
      cases h
      exact ⟨rfl, rfl, rfl⟩
    · obtain ⟨hpending, htrace, -, -, henv⟩ := performAction_drives ha h
      exact ⟨hpending, htrace, henv⟩
  refine ⟨⟨?_, performAction_link h, htrace, (performAction_registers h).1, performAction_takes h⟩, henv⟩
  rw [hpending, hq, List.tail_cons, List.singleton_append]

/-- In a legal state with an action pending, a step with an acknowledge performs it: at a wait the released line is
pulled low (10 R28, 41 R115). -/
theorem step_acknowledged {s : State} {a : Action} {rest : List Action} {later : List Pins} (hs : s.Inv)
    (hq : s.pending = a :: rest) (henv : s.env = ackPins :: later) :
    ∃ t, step s = .next t ∧ s.Performs [a] t ∧ t.env = later := by
  have hpins : s.pins = ackPins := by rw [State.pins, henv]
  have hr : s.pins.rst = false := by rw [hpins]; rfl
  have hsample : a = .waitAck → s.dioI = false := by
    rintro rfl
    obtain ⟨-, -, hpull⟩ := waitingLines s rest hs hq
    rw [hpull, hpins]
    rfl
  obtain ⟨t, ht⟩ | ⟨hidle, -⟩ := step_answers_or_reserved hs
  · have ha : performAction a s.dioI s.tick = .next t := (step_action hs.wf hr hq).symm.trans ht
    obtain ⟨⟨hpending, hlink, htrace, hregisters, htakes⟩, henv'⟩ :=
      performAction_performs (s := s.tick) hq hsample ha
    exact ⟨t, ht, ⟨hpending, hlink, htrace, hregisters, htakes.of_sameDisplay ⟨rfl, rfl, rfl, rfl⟩ rfl⟩,
      by rw [henv', State.tick_env, henv, List.tail_cons]⟩
  · simp [hidle] at hq

/-- With an acknowledge at every sample the block performs the actions at the front of `PENDING`, one per step
(60 R203). -/
theorem run_acknowledged (as : List Action) {s : State} {rest : List Action} {later : List Pins} (hs : s.Inv)
    (hq : s.pending = as ++ rest) (henv : s.env = List.replicate as.length ackPins ++ later) :
    ∃ t, core.run as.length s = .next t ∧ s.Performs as t ∧ t.Inv ∧ t.env = later := by
  induction as generalizing s with
  | nil => exact ⟨s, rfl, .nil s, hs, henv⟩
  | cons a as ih =>
    obtain ⟨u, hu, hperforms, henvu⟩ := step_acknowledged hs hq henv
    have hqu : u.pending = as ++ rest := List.cons_injective (hperforms.pending.symm.trans hq)
    obtain ⟨t, ht, hperforms', hinv, henvt⟩ := ih (stepKeepsInvariant s u hs hu) hqu henvu
    exact ⟨t, (run_succ hu _).trans ht, hperforms.append hperforms', hinv, henvt⟩

/-- The run of the whole of `PENDING`. -/
theorem run_pending {s : State} {later : List Pins} (hs : s.Inv)
    (henv : s.env = List.replicate s.pending.length ackPins ++ later) :
    ∃ t, core.run s.pending.length s = .next t ∧ t.pending = [] ∧ s.Performs s.pending t ∧ t.Inv ∧ t.env = later := by
  obtain ⟨t, ht, hperforms, hinv, henvt⟩ := run_acknowledged s.pending hs (List.append_nil _).symm henv
  exact ⟨t, ht, List.self_eq_append_right.mp hperforms.pending, hperforms, hinv, henvt⟩

/-- Settles O49: the run of `PENDING` performs it, and a legal idle state has both lines high. -/
theorem programCompletes : Obligations.ProgramCompletes := by
  intro s later hs henv
  obtain ⟨t, ht, hq, hperforms, hinv, henvt⟩ := run_pending hs henv
  obtain ⟨hclk, hdio⟩ := idleLinesHigh t hinv (by simp [State.busy, hq])
  exact ⟨t, ht, hq, hclk, hdio, hperforms.trace, henvt, hperforms.registers⟩

/-! ### Requests to their end -/

/-- An idle block runs the request on its input pins (41 R118). -/
theorem step_request {s : State} {w : ReqWord} {i : Instr} {later : List Pins} (hp : s.params.WF)
    (hq : s.pending = []) (hi : decodeRequest w = .instr i) (henv : s.env = requestPins w :: later) :
    step s = exec i s.tick := by
  have hpins : s.pins = requestPins w := by rw [State.pins, henv]
  refine stepRunsRequest s i hp ?_ hq ?_ ?_ <;> rw [hpins]
  exacts [rfl, rfl, hi]

/-- A request accepted by a legal idle block, with immediate acknowledges, runs its whole program in one step more than
it has actions; the lines are high when it begins. -/
theorem run_request {s u : State} {w : ReqWord} {i : Instr} {n : Nat} {later : List Pins} (hs : s.Inv)
    (hq : s.pending = []) (hi : decodeRequest w = .instr i) (he : exec i s.tick = .next u)
    (hn : u.pending.length = n) (henv : s.env = requestPins w :: (List.replicate n ackPins ++ later)) :
    ∃ t v, core.run (n + 1) s = .next t ∧ t.pending = [] ∧ u.link = Link.high v ∧ u.Performs u.pending t ∧
      t.Inv ∧ t.env = later := by
  obtain ⟨v, hhigh⟩ := hs.link_high hq
  have hstep : step s = .next u := (step_request hs.wf hq hi henv).trans he
  obtain ⟨-, -, -, -, -, -, henvu, -⟩ := requestFrame w i s.tick u hi he
  rw [State.tick_env, henv, List.tail_cons, ← hn] at henvu
  obtain ⟨t, ht, hidle, hperforms, hinv, henvt⟩ := run_pending (stepKeepsInvariant s u hs hstep) henvu
  rw [hn] at ht
  exact ⟨t, v, (run_succ hstep n).trans ht, hidle, (exec_request_link hi he).trans hhigh, hperforms, hinv, henvt⟩

end Sys2Proof.Machine
end

section
/-! PROOF. The requests run to their end (43 R174): what a setter and a display write leave on the display, and what a
getter answers after a setter. -/

namespace Sys2Proof.Machine

/-! ### A setter -/

/-- A setter accepted by a legal idle block, with immediate acknowledges, ends idle in a legal state with the
configuration it sets, and the peripheral has received it (43 R169, R171). -/
theorem run_setter {s : State} {w : ReqWord} {i : Instr} {b : BitVec 3} {on : Bool} {later : List Pins}
    (hs : s.Inv) (hq : s.pending = []) (hi : decodeRequest w = .instr i)
    (hset : configSet s.cfgBrightness s.cfgState i = some (b, on))
    (henv : s.env = requestPins w :: (List.replicate 60 ackPins ++ later)) :
    ∃ t, core.run 61 s = .next t ∧ t.Inv ∧ t.pending = [] ∧ t.cfgBrightness = b ∧ t.cfgState = on ∧
      t.dctrl = cmdDisplayControl s.params b on ∧ t.dram = s.dram ∧ t.dramDraw = s.dramDraw ∧
      t.dataMode = s.dataMode ∧ t.env = later ∧
      t.trace = s.trace ++ (writeCommand (cmdDisplayControl s.params b on)).map Action.event := by
  obtain ⟨u, he⟩ := exec_request_answers hi s.tick
  have hprogram : u.pending = writeCommand (cmdDisplayControl s.params b on) :=
    exec_setter_pending (s := s.tick) he hset
  have hlength : u.pending.length = 60 := by rw [hprogram, (requestActionCounts.1 _).1]
  obtain ⟨t, v, hrun, hidle, hhigh, ⟨-, -, htrace, ⟨-, hbrightness, hstate, -⟩, htakes⟩, hinv, henvt⟩ :=
    run_request hs hq hi he hlength henv
  obtain ⟨hparams, -, -, -, hdisplay, -, -, -, -, -, hsilent, -⟩ := requestFrame w i s.tick u hi he
  have hcfg : (u.cfgBrightness, u.cfgState) = (b, on) := by
    obtain ⟨-, hcfg, -⟩ := exec_registers he
    rw [hcfg, State.tick_cfgBrightness, State.tick_cfgState, hset, Option.getD_some]
  obtain ⟨hb, hon⟩ := Prod.mk.inj hcfg
  have hsetter : i ≠ .getState ∧ i ≠ .getBrt := by constructor <;> rintro rfl <;> cases hset
  obtain ⟨-, -, htraceu⟩ := hsilent hsetter
  rw [hprogram, hhigh, writeCommand, (txn_sends v _).1] at htakes
  obtain ⟨⟨hdram, hdraw, hdctrl, hmode⟩, -⟩ :=
    State.Takes.displayControl hs.wf (htakes.of_sameDisplay (s := s) hdisplay hparams)
  exact ⟨t, hrun, hinv, hidle, hbrightness.trans hb, hstate.trans hon, hdctrl, hdram, hdraw, hmode, henvt,
    by rw [htrace, htraceu, hprogram, State.tick_trace]⟩

/-- Settles O50: `run_setter`, in which the peripheral takes the one transaction of the display-control command. -/
theorem setterCompletes : Obligations.SetterCompletes := by
  intro s w i b on later hs hq hi hset henv
  obtain ⟨t, hrun, -, hrest⟩ := run_setter hs hq hi hset henv
  exact ⟨t, hrun, hrest⟩

/-! ### A getter after it -/

/-- A getter after a setter: the 61 steps of the setter leave the block idle with the value set, and the next step
answers it (43 R174, laws 3 and 4). -/
theorem run_setter_getter {s : State} {wSet wGet : ReqWord} {iSet iGet : Instr} {b : BitVec 3} {on : Bool}
    {later : List Pins} (hs : s.Inv) (hq : s.pending = []) (hiSet : decodeRequest wSet = .instr iSet)
    (hset : configSet s.cfgBrightness s.cfgState iSet = some (b, on)) (hiGet : decodeRequest wGet = .instr iGet)
    (henv : s.env = requestPins wSet :: (List.replicate 60 ackPins ++ requestPins wGet :: later)) :
    ∃ t : State, t.cfgBrightness = b ∧ t.cfgState = on ∧ core.run 62 s = exec iGet t.tick := by
  obtain ⟨t, hrun, hinv, hidle, hb, hon, -, -, -, -, henvt, -⟩ := run_setter hs hq hiSet hset henv
  obtain ⟨u, hu⟩ := exec_request_answers hiGet t.tick
  refine ⟨t, hb, hon, ?_⟩
  rw [run_add hrun 1, run_succ ((step_request hinv.wf hidle hiGet henvt).trans hu) 0, hu]
  rfl

/-- The mask of the low three bits is the brightness kept, as a byte (43 R171, R172). -/
theorem setWidth_maskBrightness (level : Byte) : (maskBrightness level).setWidth 8 = level &&& 0x07 := by
  apply BitVec.eq_of_toNat_eq
  rw [toNat_setWidth_brightness, maskBrightness_toNat]
  exact (Nat.and_two_pow_sub_one_eq_mod level.toNat 3).symm

/-- Settles O51: the getter answers the register the setter has left. -/
theorem getAfterSet : Obligations.GetAfterSet := by
  intro s wSet wGet later hs hq henv
  constructor
  · intro level hiSet hiGet
    obtain ⟨t, hb, -, hrun⟩ := run_setter_getter hs hq hiSet rfl hiGet henv
    refine ⟨_, hrun.trans (exec_getBrt _), ?_, rfl⟩
    rw [State.respond_rspData, State.tick_cfgBrightness, hb, setWidth_maskBrightness]
  · intro on hiSet hiGet
    obtain ⟨t, -, hon, hrun⟩ := run_setter_getter hs hq hiSet rfl hiGet henv
    refine ⟨_, hrun.trans (exec_getState _), ?_, rfl⟩
    rw [State.respond_rspData, State.tick_cfgState, hon]
    exact setWidth_ofBool on

/-! ### A display write -/

/-- A display write writes no register of the block (43 R165, R168). -/
theorem exec_displayWrite_registers {i : Instr} {s t : State} {patterns : List Byte} (h : exec i s = .next t)
    (hi : patternsSent s.params i = some patterns) : s.SameRegisters t := by
  cases i with
  | dispDec | dispRaw => cases h; exact ⟨rfl, rfl, rfl, rfl⟩
  | _ => cases hi

/-- After the two transactions of a content program the display reads as the patterns from address 0 on, the write mode
is set and `DCTRL` is as it was (20 R56). -/
theorem State.Takes.contentProgram {s t : State} {patterns : List Byte} (hp : s.params.WF)
    (h : s.Takes [[cmdDataWrite s.params], contentFrame s.params patterns] t) :
    (∀ k, k < patterns.length → t.readCell k = patterns[k]?) ∧ t.dctrl = s.dctrl ∧
    t.dataMode = cmdDataWrite s.params := by
  obtain ⟨dram, hw, ⟨hdram, -, hdctrl, hmode⟩, -⟩ :=
    State.Takes.content (s := { s with dataMode := cmdDataWrite s.params }) hp (h.dataWrite hp)
  refine ⟨fun k hk => ?_, hdctrl, hmode⟩
  have hin : 0 ≤ k ∧ k < 0 + patterns.length := by omega
  rw [State.readCell, hdram, Memory.read_writeFrom hw, if_pos hin, Nat.sub_zero]

theorem contentProgram_length (p : Params) {patterns : List Byte} (h : patterns.length = 4) :
    (contentProgram p (contentFrame p patterns)).length = 312 := by
  obtain ⟨c0, c1, c2, c3, rfl⟩ := List.length_eq_four.mp h
  exact (requestActionCounts.2 p c0 c1 c2 c3).1

/-- Settles O52: the peripheral takes the two transactions of the content program, and `Memory.read_writeFrom` says
what the display then reads. -/
theorem displayWriteCompletes : Obligations.DisplayWriteCompletes := by
  intro s w i patterns later hs hq hi hpatterns henv
  have hfour := patternsSent_length hpatterns
  obtain ⟨u, he⟩ := exec_request_answers hi s.tick
  have hprogram : u.pending = contentProgram s.params (contentFrame s.params patterns) :=
    exec_displayWrite_pending (s := s.tick) he hpatterns
  have hlength : u.pending.length = 312 := by rw [hprogram, contentProgram_length s.params hfour]
  obtain ⟨t, v, hrun, hidle, hhigh, ⟨-, -, -, hregisters, htakes⟩, -, henvt⟩ :=
    run_request hs hq hi he hlength henv
  obtain ⟨hparams, -, -, -, hdisplay, -⟩ := requestFrame w i s.tick u hi he
  have hregistersu : s.SameRegisters u := exec_displayWrite_registers (s := s.tick) he hpatterns
  rw [hprogram, hhigh, sentFrom_contentProgram] at htakes
  obtain ⟨hread, hdctrl, hmode⟩ := (htakes.of_sameDisplay (s := s) hdisplay hparams).contentProgram hs.wf
  exact ⟨t, hrun, hidle, fun k hk => hread k (hfour ▸ hk), hdctrl, hmode, hregistersu.trans hregisters, henvt⟩

/-- The glyphs of a display that holds four patterns. -/
theorem glyphs_eq_map_unseg {t : State} {patterns : List Byte} (hfour : patterns.length = 4)
    (hread : ∀ k, k < 4 → t.readCell k = patterns[k]?) :
    [t.glyphAt 0, t.glyphAt 1, t.glyphAt 2, t.glyphAt 3] = patterns.map (unseg t.params) := by
  obtain ⟨c0, c1, c2, c3, rfl⟩ := List.length_eq_four.mp hfour
  simp [State.glyphAt, hread]

/-- Settles O53: the display holds the patterns of the decimal frame, and `frameDecodesToNumber` reads them back. -/
theorem numberShown : Obligations.NumberShown := by
  intro s w number dots later hs hq hi hmin hmax henv
  have hpatterns : patternsSent s.params (.dispDec number dots)
      = some (withDots dots (decimalPatterns s.params (clamp number.toInt))) := rfl
  obtain ⟨t, hrun, -, hread, -, -, ⟨hparams, -⟩, -⟩ :=
    displayWriteCompletes s w _ _ later hs hq hi hpatterns henv
  refine ⟨t, hrun, ?_⟩
  rw [glyphs_eq_map_unseg (patternsSent_length hpatterns) hread, hparams]
  exact frameDecodesToNumber s.params number.toInt dots hs.wf hmin hmax

end Sys2Proof.Machine
end
